-- ==== Sys2Proof/Word.lean ====
section
/-! DEFINITION. The word types of the SLAY2 protocol core: a byte, a 32-bit word, a clock value. -/

namespace Sys2Proof

/-- One byte: a wire byte, an original byte, a sequence number, a channel number (00_scope.md, section 6). -/
abbrev Byte := BitVec 8

/-- A 32-bit word: the running CRC (R11) and the nack counter (R28, `NACK_W` = 32). -/
abbrev Word := BitVec 32

/-- A clock value, a deadline or a duration: `TIME_W` = 32 bits (R6, R130). -/
abbrev Time := BitVec 32

end Sys2Proof
end

