-- ==== Sys2Proof/Config.lean ====
section
/-! DEFINITION. What the spec leaves open: the OPEN parameters of R6, which are the same for every run of one core, and
the free values, which answer a question to the outside world that the state holds no answer to. None has a body: a
claim about the model holds whatever they are. The parameters that the spec fixes are in Machine/Params.lean. -/

namespace Sys2Proof

/-- `CTX_W` less one. A tag has at least one bit (log 8). -/
opaque Config.ctxWPred : Nat

/-- `CTX_W`: the width of a receiver's callback and context tags (R6, OPEN; log 8). -/
def Config.ctxW : Nat := Config.ctxWPred + 1

/-- `T_BASE`: the base of a new frame's deadline, in clock units (R6, OPEN; log 7). -/
opaque Config.tBase : Nat

/-- `T_PER_BYTE_NUM`: numerator of the deadline term that grows with the payload (R6, OPEN; log 7). -/
opaque Config.tPerByteNum : Nat

/-- `T_PER_BYTE_DEN` less one. The spec divides by `T_PER_BYTE_DEN` (R125), so it is at least one (log 7). -/
opaque Config.tPerByteDenPred : Nat

/-- `T_PER_BYTE_DEN`: denominator of the deadline term (R6, OPEN; log 7). -/
def Config.tPerByteDen : Nat := Config.tPerByteDenPred + 1

/-- `T_RETX`: the re-arm timeout of a retransmission (R6, OPEN; log 7). -/
opaque Config.tRetx : Nat

/-- FREE VALUE: what `Transport.transmit` would accept, asked for the n-th time without a scripted answer (R170; log 3). -/
opaque Config.freeAccepted : Nat → Nat

/-- FREE VALUE: what `Transport.txLevel` answers, asked for the n-th time without a scripted answer (R172; log 3). -/
opaque Config.freeLevel : Nat → Nat

/-- FREE VALUE: what `Transport.now` answers, asked for the n-th time without a scripted answer (R173; log 3). -/
opaque Config.freeNow : Nat → Time

/-- FREE VALUE: the content of a codec buffer at an index above its defined bytes (R14, U11: any value, never read by a
rule; log 2). -/
opaque Config.staleByte : Nat → Byte

/-- An opaque tag of a receiver, `CTX_W` bits (R20): the block never interprets it. -/
abbrev Tag := BitVec Config.ctxW

end Sys2Proof
end

