-- ==== Sys2Proof/Syntax.lean ====
section
/-! DEFINITION. The instructions: one constructor per row of spec/opcode_table.json. The first six are the inbound wire
bytes (R60), the next nine the host commands (codes 0x01 to 0x09) and the rest the internal operations (codes 0x10 and
above, R70). The operands are those of R70 with the widths of R71. -/

namespace Sys2Proof

/-- A registered receiver: two opaque tags that name the callback and its context (R20). -/
structure Receiver where
  cb  : Tag
  ctx : Tag
deriving DecidableEq, Repr

/-- The operand `rx` of `SETRX`, in the two ways the spec writes it (log 5). -/
inductive RxOperand where
  /-- R70's `none`: the enable bit 0, and no tags behind it. -/
  | none
  /-- R71's enable bit and two tags. The enable bit 0 stands for a null callback, and the tags are then ignored (R111). -/
  | tags (enable : Bool) (rx : Receiver)
deriving DecidableEq, Repr

inductive Instr where
  /-- `W.DATA`, inbound byte `1ddddddd` (R65, R146). -/
  | wData (d : BitVec 7)
  /-- `W.ACK`, inbound byte `01aaaaaa` (R64, R143). -/
  | wAck (a : BitVec 6)
  /-- `W.SYNC`, inbound byte 0x2C (R61, R141). -/
  | wSync
  /-- `W.EOA`, inbound byte 0x01 (R62, R144). -/
  | wEoa
  /-- `W.EOD`, inbound byte 0x02 (R63, R145). -/
  | wEod
  /-- `W.GARBAGE`, inbound byte `00gggggg` that is none of the three above (R66, R147). -/
  | wGarbage (g : BitVec 6)
  /-- `OPEN id` (R135). -/
  | openSlot (id : Byte)
  /-- `CLOSE id` or `CLOSE none` (R136). -/
  | closeSlot (id : Option Byte)
  /-- `SEND id, len, more, data` (R110). -/
  | send (id : Byte) (len : BitVec 16) (more : Bool) (data : List Byte)
  /-- `SETRX id, rx` (R111). -/
  | setrx (id : Byte) (rx : RxOperand)
  /-- `TXSIZE id` (R112). -/
  | txsize (id : Byte)
  /-- `TXSPACE id` (R113). -/
  | txspace (id : Byte)
  /-- `TXFLUSH id` (R114). -/
  | txflush (id : Byte)
  /-- `TASK` (R137). -/
  | task
  /-- `GETNACK` (R129). -/
  | getnack
  /-- `ENC_A.PUSH E, b`, `E` one of the three ACK encode buffers `ackQ.slot[e].frame` (R84, R13). -/
  | encAPush (e : Fin 3) (b : Byte)
  /-- `ENC_A.PUSH32 E, v` (R86). -/
  | encAPush32 (e : Fin 3) (v : Word)
  /-- `ENC_A.END E` (R96). -/
  | encAEnd (e : Fin 3)
  /-- `ENC_A.FLUSH E` (R88). -/
  | encAFlush (e : Fin 3)
  /-- `DEC_A.PUSH D, e`, `D` the one ACK decode buffer `rxAck` (R90, R13). -/
  | decAPush (b : Byte)
  /-- `DEC_A.FLUSH D` (R92). -/
  | decAFlush
  /-- `DECODE_A E[], n` (R94). -/
  | decodeA (frame : List Byte) (n : BitVec 16)
  /-- `ENC_D.PUSH E, b`, `E` one of the three DATA encode buffers `win.slot[e].frame` (R85, R13). -/
  | encDPush (e : Fin 3) (b : Byte)
  /-- `ENC_D.PUSH32 E, v` (R87). -/
  | encDPush32 (e : Fin 3) (v : Word)
  /-- `ENC_D.END E` (R97). -/
  | encDEnd (e : Fin 3)
  /-- `ENC_D.FLUSH E` (R89). -/
  | encDFlush (e : Fin 3)
  /-- `DEC_D.PUSH D, e`, `D` the one DATA decode buffer `rxData` (R91, R13). -/
  | decDPush (b : Byte)
  /-- `DEC_D.FLUSH D` (R93). -/
  | decDFlush
  /-- `DECODE_D E[], n` (R95). -/
  | decodeD (frame : List Byte) (n : BitVec 16)
  /-- `IS_SYNC b` (R98). -/
  | isSync (b : Byte)
  /-- `IS_EOA b` (R99). -/
  | isEoa (b : Byte)
  /-- `IS_EOD b` (R100). -/
  | isEod (b : Byte)
  /-- `IS_ACK b` (R101). -/
  | isAck (b : Byte)
  /-- `IS_DATA b` (R102). -/
  | isData (b : Byte)
  /-- `CRC32.STEP c, b` (R80). -/
  | crc32Step (c : Word) (b : Byte)
  /-- `GETNEXT now` (R120). -/
  | getnext (now : Time)
  /-- `ACKX seq` (R126). -/
  | ackx (seq : Byte)
  /-- `SCHEDACK seq` (R127). -/
  | schedack (seq : Byte)
  /-- `SRESET` (R128). -/
  | sreset
  /-- `SYNCBURST` (R138). -/
  | syncburst
  /-- `RXDRAIN` (R139). -/
  | rxdrain
  /-- `RXBYTE b` (R140). -/
  | rxbyte (b : Byte)
  /-- `RESYNC` (R142). -/
  | resync
  /-- `TXSTEP` (R149). -/
  | txstep
deriving DecidableEq, Repr

/-- Where an instruction is presented. `host` is the command port (R70, R175), which takes the nine host commands only;
`test` is the unit-level test port of R70, which takes the internal operations; `wire` presents one inbound byte to the
byte classifier (00_scope.md, section 4, instruction stream (a); log 4). -/
inductive Port where
  | host
  | test
  | wire
deriving DecidableEq, Repr

/-- One transaction on a port: the code and the operands as bytes (log 5). -/
structure Request where
  port  : Port
  bytes : List Byte
deriving DecidableEq, Repr

end Sys2Proof
end

