-- ==== Sys2Proof/WellFormed.lean ====
section
/-! DEFINITION. Which instructions can be presented at all: the operand ranges of R60, R66 and R71. Every meaning is
total, so an ill-formed instruction has a meaning too, but no word encodes it. -/

namespace Sys2Proof

/-- The low six bits of a garbage byte are none of 0x01, 0x02, 0x2C (R66). -/
def garbageBits (g : BitVec 6) : Bool := g != 0x01#6 && g != 0x02#6 && g != 0x2C#6

/-- `CLOSE`'s operand 0xFF stands for none, so it is no slot number (R71). -/
def closeOperand : Option Byte → Bool
  | none => true
  | some id => id != 0xFF#8

/-- An instruction whose operands lie in the ranges of R66 and R71. -/
def Instr.wf : Instr → Bool
  | .wGarbage g => garbageBits g
  | .closeSlot id => closeOperand id
  | .send _ len _ data => data.length == len.toNat
  | .decodeA frame _ => decide (frame.length < 2 ^ 16)
  | .decodeD frame _ => decide (frame.length < 2 ^ 16)
  | .wData _ | .wAck _ | .wSync | .wEoa | .wEod => true
  | .openSlot _ | .setrx _ _ | .txsize _ | .txspace _ | .txflush _ | .task | .getnack => true
  | .encAPush _ _ | .encAPush32 _ _ | .encAEnd _ | .encAFlush _ | .decAPush _ | .decAFlush => true
  | .encDPush _ _ | .encDPush32 _ _ | .encDEnd _ | .encDFlush _ | .decDPush _ | .decDFlush => true
  | .isSync _ | .isEoa _ | .isEod _ | .isAck _ | .isData _ | .crc32Step _ _ => true
  | .getnext _ | .ackx _ | .schedack _ | .sreset => true
  | .syncburst | .rxdrain | .rxbyte _ | .resync | .txstep => true

end Sys2Proof
end

