-- ==== Sys2Proof/Decode.lean ====
section
/-! DEFINITION. Decoding and encoding. The codes are those of R60 (wire bytes) and R70 (command codes); the operand
bytes behind a command code follow R70's operand order with R71's widths, most significant byte first (log 5). -/

namespace Sys2Proof

/-! ## Bytes and numbers -/

/-- The number that a string of bytes holds, most significant byte first. -/
def ofBe (bs : List Byte) : Nat := bs.foldl (fun acc b => acc * 256 + b.toNat) 0

/-- The low `n` bytes of a number, most significant byte first. -/
def beBytes : Nat → Nat → List Byte
  | 0, _ => []
  | n + 1, v => BitVec.ofNat 8 (v / 256 ^ n) :: beBytes n v

/-- How many bytes hold a tag of `CTX_W` bits. -/
def tagBytes : Nat := (Config.ctxW + 7) / 8

/-! ## The wire byte (R60 to R66) -/

/-- The instruction that an inbound byte is. Every byte belongs to exactly one class (R60). -/
def decodeWire (b : Byte) : Instr :=
  if b.extractLsb' 7 1 = 1#1 then .wData (b.extractLsb' 0 7)
  else if b.extractLsb' 6 2 = 1#2 then .wAck (b.extractLsb' 0 6)
  else if b = 0x2C#8 then .wSync
  else if b = 0x01#8 then .wEoa
  else if b = 0x02#8 then .wEod
  else .wGarbage (b.extractLsb' 0 6)

/-! ## The command codes (R70) -/

/-- The rows of the command table, R70, in its order. -/
inductive Op where
  | openSlot | closeSlot | send | setrx | txsize | txspace | txflush | task | getnack
  | encAPush | encAPush32 | encAEnd | encAFlush | decAPush | decAFlush | decodeA
  | encDPush | encDPush32 | encDEnd | encDFlush | decDPush | decDFlush | decodeD
  | isSync | isEoa | isEod | isAck | isData | crc32Step
  | getnext | ackx | schedack | sreset
  | syncburst | rxdrain | rxbyte | resync | txstep
deriving DecidableEq, Repr

/-- The code of each row of R70. -/
def Op.code : Op → Byte
  | .openSlot => 0x01 | .closeSlot => 0x02 | .send => 0x03 | .setrx => 0x04 | .txsize => 0x05
  | .txspace => 0x06 | .txflush => 0x07 | .task => 0x08 | .getnack => 0x09
  | .encAPush => 0x10 | .encAPush32 => 0x11 | .encAEnd => 0x12 | .encAFlush => 0x13
  | .decAPush => 0x14 | .decAFlush => 0x15 | .decodeA => 0x16
  | .encDPush => 0x18 | .encDPush32 => 0x19 | .encDEnd => 0x1A | .encDFlush => 0x1B
  | .decDPush => 0x1C | .decDFlush => 0x1D | .decodeD => 0x1E
  | .isSync => 0x20 | .isEoa => 0x21 | .isEod => 0x22 | .isAck => 0x23 | .isData => 0x24
  | .crc32Step => 0x28
  | .getnext => 0x30 | .ackx => 0x31 | .schedack => 0x32 | .sreset => 0x33
  | .syncburst => 0x40 | .rxdrain => 0x41 | .rxbyte => 0x42 | .resync => 0x43 | .txstep => 0x44

def Op.all : List Op :=
  [.openSlot, .closeSlot, .send, .setrx, .txsize, .txspace, .txflush, .task, .getnack,
   .encAPush, .encAPush32, .encAEnd, .encAFlush, .decAPush, .decAFlush, .decodeA,
   .encDPush, .encDPush32, .encDEnd, .encDFlush, .decDPush, .decDFlush, .decodeD,
   .isSync, .isEoa, .isEod, .isAck, .isData, .crc32Step,
   .getnext, .ackx, .schedack, .sreset,
   .syncburst, .rxdrain, .rxbyte, .resync, .txstep]

/-- The row of a code; none for the reserved codes of R73. -/
def Op.ofCode (c : Byte) : Option Op := Op.all.find? (fun o => o.code == c)

/-- Why a transaction is not an instruction of its port. -/
inductive DecodeError where
  /-- No byte at all. -/
  | empty
  /-- A reserved code (R73). -/
  | reservedCode (c : Byte)
  /-- Fewer bytes than the operands need. -/
  | truncated
  /-- More bytes than the operands need. -/
  | trailing
  /-- A one-bit operand is presented as 0 or 1 (R71). -/
  | notABit
  /-- The buffer operand names no codec buffer of the operation's kind (R13). -/
  | noSuchBuffer
  /-- A tag wider than `CTX_W` bits (R71). -/
  | tagTooWide
  /-- An internal code on the command port (R73). -/
  | internalCode
  /-- A host command on the unit-level test port (log 4). -/
  | hostCode
deriving DecidableEq, Repr

abbrev Decoded (α : Type) := Except DecodeError α

/-- Read one byte. -/
def withByte (r : List Byte) (f : Byte → List Byte → Decoded (Instr × List Byte)) : Decoded (Instr × List Byte) :=
  match r with
  | [] => .error .truncated
  | b :: rest => f b rest

/-- Read a number of `n` bytes. -/
def withNum (n : Nat) (r : List Byte) (f : Nat → List Byte → Decoded (Instr × List Byte)) :
    Decoded (Instr × List Byte) :=
  if r.length < n then .error .truncated else f (ofBe (r.take n)) (r.drop n)

/-- Read a one-bit operand. -/
def withBit (r : List Byte) (f : Bool → List Byte → Decoded (Instr × List Byte)) : Decoded (Instr × List Byte) :=
  withByte r fun b rest => if b = 0x00#8 then f false rest else if b = 0x01#8 then f true rest else .error .notABit

/-- Read a string of `n` bytes. -/
def withBytes (n : Nat) (r : List Byte) (f : List Byte → List Byte → Decoded (Instr × List Byte)) :
    Decoded (Instr × List Byte) :=
  if r.length < n then .error .truncated else f (r.take n) (r.drop n)

/-- Read the buffer operand of an encoder: one of the three entries of its queue (R13). -/
def withEncoder (r : List Byte) (f : Fin 3 → List Byte → Decoded (Instr × List Byte)) : Decoded (Instr × List Byte) :=
  withByte r fun b rest => if h : b.toNat < 3 then f ⟨b.toNat, h⟩ rest else .error .noSuchBuffer

/-- Read the buffer operand of a decoder: there is one of each kind (R13). -/
def withDecoder (r : List Byte) (f : List Byte → Decoded (Instr × List Byte)) : Decoded (Instr × List Byte) :=
  withByte r fun b rest => if b = 0x00#8 then f rest else .error .noSuchBuffer

/-- Read a tag of `CTX_W` bits. -/
def withTag (r : List Byte) (f : Tag → List Byte → Decoded (Instr × List Byte)) : Decoded (Instr × List Byte) :=
  withNum tagBytes r fun v rest =>
    if v < 2 ^ Config.ctxW then f (BitVec.ofNat _ v) rest else .error .tagTooWide

/-- Read the receiver operand of `SETRX`: an enable bit and two tags (R71), or the enable bit 0 alone, R70's `none`
(log 5). It is the last operand, so "alone" is "with nothing behind". -/
def withRx (r : List Byte) (f : RxOperand → List Byte → Decoded (Instr × List Byte)) : Decoded (Instr × List Byte) :=
  withBit r fun enable r =>
    if enable = false ∧ r = [] then f .none r
    else withTag r fun cb r => withTag r fun ctx r => f (.tags enable ⟨cb, ctx⟩) r

/-- The operands of each command, in the order of R70. -/
def decodeOperands (op : Op) (r : List Byte) : Decoded (Instr × List Byte) :=
  match op with
  | .openSlot => withByte r fun id r => .ok (.openSlot id, r)
  | .closeSlot => withByte r fun id r => .ok (.closeSlot (if id = 0xFF#8 then none else some id), r)
  | .send =>
    withByte r fun id r => withNum 2 r fun len r => withBit r fun more r => withBytes len r fun data r =>
      .ok (.send id (BitVec.ofNat 16 len) more data, r)
  | .setrx => withByte r fun id r => withRx r fun rx r => .ok (.setrx id rx, r)
  | .txsize => withByte r fun id r => .ok (.txsize id, r)
  | .txspace => withByte r fun id r => .ok (.txspace id, r)
  | .txflush => withByte r fun id r => .ok (.txflush id, r)
  | .task => .ok (.task, r)
  | .getnack => .ok (.getnack, r)
  | .encAPush => withEncoder r fun e r => withByte r fun b r => .ok (.encAPush e b, r)
  | .encAPush32 => withEncoder r fun e r => withNum 4 r fun v r => .ok (.encAPush32 e (BitVec.ofNat 32 v), r)
  | .encAEnd => withEncoder r fun e r => .ok (.encAEnd e, r)
  | .encAFlush => withEncoder r fun e r => .ok (.encAFlush e, r)
  | .decAPush => withDecoder r fun r => withByte r fun b r => .ok (.decAPush b, r)
  | .decAFlush => withDecoder r fun r => .ok (.decAFlush, r)
  | .decodeA =>
    withNum 2 r fun n r => withNum 2 r fun len r => withBytes len r fun frame r =>
      .ok (.decodeA frame (BitVec.ofNat 16 n), r)
  | .encDPush => withEncoder r fun e r => withByte r fun b r => .ok (.encDPush e b, r)
  | .encDPush32 => withEncoder r fun e r => withNum 4 r fun v r => .ok (.encDPush32 e (BitVec.ofNat 32 v), r)
  | .encDEnd => withEncoder r fun e r => .ok (.encDEnd e, r)
  | .encDFlush => withEncoder r fun e r => .ok (.encDFlush e, r)
  | .decDPush => withDecoder r fun r => withByte r fun b r => .ok (.decDPush b, r)
  | .decDFlush => withDecoder r fun r => .ok (.decDFlush, r)
  | .decodeD =>
    withNum 2 r fun n r => withNum 2 r fun len r => withBytes len r fun frame r =>
      .ok (.decodeD frame (BitVec.ofNat 16 n), r)
  | .isSync => withByte r fun b r => .ok (.isSync b, r)
  | .isEoa => withByte r fun b r => .ok (.isEoa b, r)
  | .isEod => withByte r fun b r => .ok (.isEod b, r)
  | .isAck => withByte r fun b r => .ok (.isAck b, r)
  | .isData => withByte r fun b r => .ok (.isData b, r)
  | .crc32Step => withNum 4 r fun c r => withByte r fun b r => .ok (.crc32Step (BitVec.ofNat 32 c) b, r)
  | .getnext => withNum 4 r fun now r => .ok (.getnext (BitVec.ofNat 32 now), r)
  | .ackx => withByte r fun seq r => .ok (.ackx seq, r)
  | .schedack => withByte r fun seq r => .ok (.schedack seq, r)
  | .sreset => .ok (.sreset, r)
  | .syncburst => .ok (.syncburst, r)
  | .rxdrain => .ok (.rxdrain, r)
  | .rxbyte => withByte r fun b r => .ok (.rxbyte b, r)
  | .resync => .ok (.resync, r)
  | .txstep => .ok (.txstep, r)

/-- The instruction at the head of a string of command bytes, and the bytes behind it. -/
def decodeCmd (bytes : List Byte) : Decoded (Instr × List Byte) :=
  match bytes with
  | [] => .error .empty
  | c :: r =>
    match Op.ofCode c with
    | none => .error (.reservedCode c)
    | some op => decodeOperands op r

/-- The port that an instruction is presented on: codes 0x01 to 0x09 on the command port, codes 0x10 and above on the
unit-level test port (R70), a wire byte on the wire. -/
def Instr.port : Instr → Port
  | .wData _ | .wAck _ | .wSync | .wEoa | .wEod | .wGarbage _ => .wire
  | .openSlot _ | .closeSlot _ | .send _ _ _ _ | .setrx _ _ | .txsize _ | .txspace _ | .txflush _ | .task
  | .getnack => .host
  | .encAPush _ _ | .encAPush32 _ _ | .encAEnd _ | .encAFlush _ | .decAPush _ | .decAFlush | .decodeA _ _ => .test
  | .encDPush _ _ | .encDPush32 _ _ | .encDEnd _ | .encDFlush _ | .decDPush _ | .decDFlush | .decodeD _ _ => .test
  | .isSync _ | .isEoa _ | .isEod _ | .isAck _ | .isData _ | .crc32Step _ _ => .test
  | .getnext _ | .ackx _ | .schedack _ | .sreset => .test
  | .syncburst | .rxdrain | .rxbyte _ | .resync | .txstep => .test

/-- A whole transaction that is a command on the port `p`. -/
def decodeCmdOn (p : Port) (bytes : List Byte) : Decoded Instr :=
  match decodeCmd bytes with
  | .error e => .error e
  | .ok (i, rest) =>
    if i.port = p then (if rest = [] then .ok i else .error .trailing)
    else if p = .host then .error .internalCode else .error .hostCode

/-- A transaction on the wire is one byte. -/
def decodeByte (bytes : List Byte) : Decoded Instr :=
  match bytes with
  | [] => .error .empty
  | [b] => .ok (decodeWire b)
  | _ :: _ :: _ => .error .trailing

/-- The instruction of a transaction, or the reason why it is none. -/
def decode (r : Request) : Decoded Instr :=
  match r.port with
  | .host => decodeCmdOn .host r.bytes
  | .test => decodeCmdOn .test r.bytes
  | .wire => decodeByte r.bytes

/-! ## Encoding -/

/-- A one-bit operand as a byte. -/
def bitByte (b : Bool) : Byte := if b then 0x01#8 else 0x00#8

/-- A tag as bytes. -/
def tagToBytes (t : Tag) : List Byte := beBytes tagBytes t.toNat

/-- `SETRX`'s receiver operand: the enable bit, then the two tags (R71), or the enable bit 0 alone (R70). -/
def rxToBytes : RxOperand → List Byte
  | .none => [bitByte false]
  | .tags enable rx => bitByte enable :: (tagToBytes rx.cb ++ tagToBytes rx.ctx)

/-- The buffer operand of an encoder as a byte. -/
def slotByte (e : Fin 3) : Byte := BitVec.ofNat 8 e.val

/-- The bytes of an instruction. -/
def Instr.toBytes : Instr → List Byte
  | .wData d => [1#1 ++ d]
  | .wAck a => [1#2 ++ a]
  | .wSync => [0x2C]
  | .wEoa => [0x01]
  | .wEod => [0x02]
  | .wGarbage g => [0#2 ++ g]
  | .openSlot id => [Op.openSlot.code, id]
  | .closeSlot id => [Op.closeSlot.code, id.getD 0xFF#8]
  | .send id len more data => Op.send.code :: id :: (beBytes 2 len.toNat ++ bitByte more :: data)
  | .setrx id rx => Op.setrx.code :: id :: rxToBytes rx
  | .txsize id => [Op.txsize.code, id]
  | .txspace id => [Op.txspace.code, id]
  | .txflush id => [Op.txflush.code, id]
  | .task => [Op.task.code]
  | .getnack => [Op.getnack.code]
  | .encAPush e b => [Op.encAPush.code, slotByte e, b]
  | .encAPush32 e v => Op.encAPush32.code :: slotByte e :: beBytes 4 v.toNat
  | .encAEnd e => [Op.encAEnd.code, slotByte e]
  | .encAFlush e => [Op.encAFlush.code, slotByte e]
  | .decAPush b => [Op.decAPush.code, 0x00, b]
  | .decAFlush => [Op.decAFlush.code, 0x00]
  | .decodeA frame n => Op.decodeA.code :: (beBytes 2 n.toNat ++ (beBytes 2 frame.length ++ frame))
  | .encDPush e b => [Op.encDPush.code, slotByte e, b]
  | .encDPush32 e v => Op.encDPush32.code :: slotByte e :: beBytes 4 v.toNat
  | .encDEnd e => [Op.encDEnd.code, slotByte e]
  | .encDFlush e => [Op.encDFlush.code, slotByte e]
  | .decDPush b => [Op.decDPush.code, 0x00, b]
  | .decDFlush => [Op.decDFlush.code, 0x00]
  | .decodeD frame n => Op.decodeD.code :: (beBytes 2 n.toNat ++ (beBytes 2 frame.length ++ frame))
  | .isSync b => [Op.isSync.code, b]
  | .isEoa b => [Op.isEoa.code, b]
  | .isEod b => [Op.isEod.code, b]
  | .isAck b => [Op.isAck.code, b]
  | .isData b => [Op.isData.code, b]
  | .crc32Step c b => Op.crc32Step.code :: (beBytes 4 c.toNat ++ [b])
  | .getnext now => Op.getnext.code :: beBytes 4 now.toNat
  | .ackx seq => [Op.ackx.code, seq]
  | .schedack seq => [Op.schedack.code, seq]
  | .sreset => [Op.sreset.code]
  | .syncburst => [Op.syncburst.code]
  | .rxdrain => [Op.rxdrain.code]
  | .rxbyte b => [Op.rxbyte.code, b]
  | .resync => [Op.resync.code]
  | .txstep => [Op.txstep.code]

/-- The transaction that presents an instruction. -/
def encode (i : Instr) : Request := ⟨i.port, i.toBytes⟩

/-! ## The words of the opcode table -/

/-- As many bytes as the longest of the table's instructions has, in its shortest form, when its operand bytes are zero
(`GETNEXT`, `CRC32.STEP` and the like), and a few to spare. -/
def longestTableWord : Nat := 8

/-- The bytes of a word of `nbits` bits numbered as spec/opcode_table.json numbers them: the first byte is bits 7..0,
the next bits 15..8 and so on; the bits above `nbits` are zero. -/
def tableBytes (nbits w : Nat) : List Byte :=
  (List.range longestTableWord).map fun k => BitVec.ofNat 8 ((w % 2 ^ nbits) / 256 ^ k)

/-- The first of the lengths at which a string of bytes begins with a whole command. -/
def shortestCommand (bytes : List Byte) : List Nat → Option Instr
  | [] => none
  | n :: ns =>
    match decodeCmd (bytes.take n) with
    | .ok (i, _) => some i
    | .error _ => shortestCommand bytes ns

/-- The instruction that the decoder reads from a word of the opcode table: the shortest command its bytes begin with. The
table's two formats, `wire8` and `cmd8`, are two streams whose codes overlap and which only the port tells apart (R70,
00_scope.md section 4): a code that R70 gives a command is read as that command, any other as an inbound byte (log 6). -/
def decodeTableWord (nbits w : Nat) : Option Instr :=
  if nbits = 0 then none
  else
    match Op.ofCode (BitVec.ofNat 8 (w % 2 ^ nbits)) with
    | none => some (decodeWire (BitVec.ofNat 8 (w % 2 ^ nbits)))
    | some _ => shortestCommand (tableBytes nbits w) (List.range' 1 longestTableWord)

end Sys2Proof
end

