-- ==== Sys2Proof/Machine/State.lean ====
section
/-! DEFINITION. The state: the block's own state (10_state.md, R10 to R29), and the outside world that a step reads and
writes (60_exceptions.md, R170 to R175): the transport, the requests on the ports, the host's answers to deliveries, and
what the block has answered and delivered. -/

namespace Sys2Proof.Machine

/-- A codec buffer (R11 for an encode buffer, R12 for a decode buffer; the same four fields). `bytes` is the part of the
byte region that has defined content: the `count` complete bytes and, while `step` has left one, the partly filled byte
at index `count` (R14, R15). The bytes above have no defined content and no rule reads them (log 2). -/
structure CodecBuf where
  bytes : List Byte
  count : Nat
  step  : Nat
  crc   : Word
deriving DecidableEq, Repr

/-- An open channel (R20): its outbound queue, oldest byte first (R22), its `more` flag (R23), its receiver (R24). -/
structure Channel where
  q    : List Byte
  more : Bool
  rx   : Option Receiver
deriving DecidableEq, Repr

/-- An in-flight data frame (R26). -/
structure WinEntry where
  frame    : CodecBuf
  deadline : Time
  duration : Time
deriving DecidableEq, Repr

/-- A FIFO of depth 3 (R25, R26). `slots` are its three slots in FIFO order: the `len` live entries oldest first, then
the free slots, the next tail first (log 9). -/
structure Fifo (α : Type) where
  slots : Vector α 3
  len   : Nat
deriving DecidableEq, Repr

/-- The transport as the block sees it (R170 to R173; log 3). The lists are the outside world's answers to the block's
next questions, the next answer first. -/
structure Link where
  /-- What the next calls of `Transport.receive` return (R171); the empty string says "none pending". -/
  rx : List (List Byte)
  /-- Whether, behind the listed answers, inbound bytes come without pause (R190, U17) or none is pending. -/
  rxEndless : Bool
  /-- How many bytes the next calls of `Transport.transmit` would take (R170). -/
  accepts : List Nat
  /-- What the next calls of `Transport.txLevel` answer (R172). -/
  levels : List Nat
  /-- What the next calls of `Transport.now` answer (R173). -/
  clock : List Time
  /-- The model's own counter: how many questions were answered by a free value of Config (log 3). -/
  asked : Nat
  /-- The outbound stream: every byte the transport has accepted, oldest first (R55). -/
  tx : List Byte
deriving DecidableEq, Repr

/-- The status of an executed command (R72). -/
inductive Status where
  | ok
  | fail
  | refused
deriving DecidableEq, Repr

/-- The two kinds of codec (R2). -/
inductive Kind where
  | ack
  | data
deriving DecidableEq, Repr

/-- A frame that the scheduler returns: its kind and its bytes (R120). -/
structure Frame where
  kind  : Kind
  bytes : List Byte
deriving DecidableEq, Repr

/-- The value a command answers with (R70, R72). -/
inductive Value where
  | none
  | num (v : Word)
  | bool (b : Bool)
  | frame (f : Frame)
deriving DecidableEq, Repr

/-- What a command answers (R72). -/
structure Answer where
  status : Status
  value  : Value
deriving DecidableEq, Repr

/-- A delivery event on the delivery port (R148): the channel, the receiver's tags and the payload by value. -/
structure Delivery where
  ch      : Byte
  rx      : Receiver
  payload : List Byte
deriving DecidableEq, Repr

/-- Why the machine stops. No operation traps or faults (R160); one does not come back. -/
inductive Fault where
  /-- Raised by `RXDRAIN`, and by `TASK` through it, when the inbound bytes come without pause: the drain does not end
  and the command does not return (R190, U17: stuck). Safe: the model stops where the block hangs. -/
  | drainNeverEnds
deriving DecidableEq, Repr

/-- Why an instruction has no meaning. -/
inductive Refusal where
  /-- Raised by `exec` for an instruction that has no meaning yet; no arm does. Safe: nothing can be proved of it. -/
  | notModelled (mnemonic : String)
deriving DecidableEq, Repr

structure State where
  /-- The eight channel slots, none for a closed one (R20). -/
  chan : Vector (Option Channel) 8
  /-- The ACK decode buffer (R13). -/
  rxAck : CodecBuf
  /-- The DATA decode buffer (R13). -/
  rxData : CodecBuf
  /-- The sequence number the next delivered data frame must carry (R29). -/
  expectedSeq : Byte
  /-- False in the Unsynchronized state, true in the Synchronized state (R29). -/
  syncSent : Bool
  /-- The consecutive-SYNC counter, 2 bits, values 0 to 2 (R29, D32). -/
  syncCount : BitVec 2
  /-- The ACK queue: each slot an ACK encode buffer (R25). -/
  ackQ : Fifo CodecBuf
  /-- The window of in-flight data frames (R26). -/
  win : Fifo WinEntry
  /-- The number of the next new data frame (R27). -/
  nextSeq : Byte
  /-- The consecutive-retransmission counter (R28). -/
  nackCount : Word
  /-- The transport and the clock (R170 to R173). -/
  link : Link
  /-- The transactions presented to the block and not yet executed, the next one first (R50, R175; log 4). -/
  requests : List Request
  /-- The commands the host nests in the next deliveries, the next delivery's first, each as its bytes on the command
  port (R52, R175; log 10). -/
  nested : List (List (List Byte))
  /-- What the block has answered on the command and test ports, oldest first (R72, R175). -/
  answers : List Answer
  /-- The deliveries the block has made, oldest first (R148). -/
  delivered : List Delivery
deriving DecidableEq, Repr

/-- A flushed codec buffer: `count` 0, `step` 0, `crc` all ones (R35, R54). -/
def CodecBuf.empty : CodecBuf := { bytes := [], count := 0, step := 0, crc := 0xFFFFFFFF#32 }

/-- A window slot after reset. R35 leaves `deadline` and `duration` unspecified; zero is the model's choice (log 1). -/
def WinEntry.reset : WinEntry := { frame := CodecBuf.empty, deadline := 0, duration := 0 }

/-- The transport before the outside world has said anything (log 3). -/
def Link.reset : Link :=
  { rx := [], rxEndless := false, accepts := [], levels := [], clock := [], asked := 0, tx := [] }

/-- The state after hardware reset (R35, R180): every slot closed, everything flushed, empty and zero, Unsynchronized;
no request is pending, and nothing has been answered, sent or delivered. -/
def State.reset : State :=
  { chan := Vector.replicate 8 none
    rxAck := CodecBuf.empty
    rxData := CodecBuf.empty
    expectedSeq := 0
    syncSent := false
    syncCount := 0
    ackQ := { slots := Vector.replicate 3 CodecBuf.empty, len := 0 }
    win := { slots := Vector.replicate 3 WinEntry.reset, len := 0 }
    nextSeq := 0
    nackCount := 0
    link := Link.reset
    requests := []
    nested := []
    answers := []
    delivered := [] }

end Sys2Proof.Machine
end

