-- ==== Sys2Proof/Machine/Params.lean ====
section
/-! DEFINITION. The parameters that R6 fixes, and the constants of the two codecs (40_codec.md, the table before
section 1). The OPEN parameters are in Config.lean. -/

namespace Sys2Proof.Machine

/-- `ACKQ_DEPTH` and `WIN_DEPTH` (R6); the number of slots of a `Fifo`. -/
def fifoDepth : Nat := 3

/-- `MAX_PAYLOAD` (R6). -/
def maxPayload : Nat := 256

/-- `TXQ_CAP` (R6, R22, D24). -/
def txqCap : Nat := 1024

/-- `SYNC` (R6, R61). -/
def syncByte : Byte := 0x2C

/-- `SYNC_TX_BURST` bytes `SYNC` (R6, R77). -/
def syncBurst : List Byte := List.replicate 5 syncByte

/-- `SYNC_RX_DETECT` (R6, R141). -/
def syncRxDetect : Nat := 3

/-- `ACK_FRAME_LEN` (R6, R144). -/
def ackFrameLen : Nat := 5

/-- `DATA_MIN_LEN` (R6, C2). -/
def dataMinLen : Nat := 7

/-- `CRC_INIT` (R6). -/
def crcInit : Word := 0xFFFFFFFF

/-- `CRC_POLY` (R6, R80, D4). -/
def crcPoly : Word := 0x04C11DB7

/-- `TX_LOW_WATER` (R6, D16). -/
def txLowWater : Nat := 24

/-- `W`: payload bits of an encoded byte. -/
def Kind.width : Kind → Nat
  | .ack => 6
  | .data => 7

/-- `d` = 8 - `W`. -/
def Kind.d : Kind → Nat
  | .ack => 2
  | .data => 1

/-- `G`: original bytes of a super-group. -/
def Kind.group : Kind → Nat
  | .ack => 3
  | .data => 7

/-- `P`: encoded bytes of a super-group. -/
def Kind.positions : Kind → Nat
  | .ack => 4
  | .data => 8

/-- `TAG`. -/
def Kind.tag : Kind → Byte
  | .ack => 0x40
  | .data => 0x80

/-- `M`: the payload mask. -/
def Kind.mask : Kind → Byte
  | .ack => 0x3F
  | .data => 0x7F

/-- The terminator, `END_OF_ACK` or `END_OF_DATA`. -/
def Kind.terminator : Kind → Byte
  | .ack => 0x01
  | .data => 0x02

/-- `CAP`: `ACK_CAP` or `DATA_CAP` (R6, D7). -/
def Kind.cap : Kind → Nat
  | .ack => 16
  | .data => 352

end Sys2Proof.Machine
end

