-- ==== Sys2Proof/Machine/Operands.lean ====
section
/-! DEFINITION. The operand forms: the bit fields of the two packings (R69), the CRC register (R80), the slots that an
`id` names (R115), the entry of a queue that a buffer operand names (R13). -/

namespace Sys2Proof.Machine

/-! ## The packing -/

/-- The top `W - d*s` bits of an original byte at step `s`, which complete the current encoded byte (R84, R85). -/
def hiPart (k : Kind) (s : Nat) (b : Byte) : Byte := b >>> (k.d * (s + 1))

/-- The low `d*(s+1)` bits of an original byte at step `s`, left-aligned in `W` bits, which open the next encoded byte
(R84, R85). -/
def loPart (k : Kind) (s : Nat) (b : Byte) : Byte := (b <<< (k.width - k.d * (s + 1))) &&& k.mask

/-- The payload bits of an encoded byte; the tag is masked off and not checked (R90, R91, D11). -/
def payloadBits (k : Kind) (e : Byte) : Byte := e &&& k.mask

/-- The top `d*j` of `W` payload bits, which complete the original byte in work at position `j` (R90, R91). -/
def completing (k : Kind) (j : Nat) (p : Byte) : Byte := p >>> (k.width - k.d * j)

/-- The payload bits below those, left-aligned in a byte: the seed of the next original byte (R90, R91). -/
def seeding (k : Kind) (j : Nat) (p : Byte) : Byte := p <<< (k.d * (j + 1))

/-- The byte at index `i` of a codec buffer; above the defined content it is any value (R14, log 2). -/
def CodecBuf.get (E : CodecBuf) (i : Nat) : Byte := E.bytes.getD i (Config.staleByte i)

/-- The complete bytes of a codec buffer (R14). -/
def CodecBuf.complete (E : CodecBuf) : List Byte := E.bytes.take E.count

/-- Original byte `n` out of encoded bytes, by direct arithmetic on row and step (R69, R94, R95). -/
def originalByte (k : Kind) (E : Nat → Byte) (n : Nat) : Byte :=
  let s := n % k.group
  let i := k.positions * (n / k.group) + s
  (payloadBits k (E i) <<< (k.d * (s + 1))) ||| (payloadBits k (E (i + 1)) >>> (k.width - k.d * (s + 1)))

/-! ## The CRC register -/

/-- One shift of the CRC register (R80). -/
def crcShift (c : Word) : Word := if c.msb then (c <<< 1) ^^^ crcPoly else c <<< 1

/-- `n` shifts of the CRC register. -/
def crcShifts : Nat → Word → Word
  | 0, c => c
  | n + 1, c => crcShifts n (crcShift c)

/-- `CRC32.STEP` (R80). -/
def crcStep (c : Word) (b : Byte) : Word := crcShifts 8 (c ^^^ (b.setWidth 32 <<< 24))

/-- The register after a string of bytes, from `c`. -/
def crcOver (c : Word) (bs : List Byte) : Word := bs.foldl crcStep c

/-- The four bytes of a 32-bit value, most significant first (R41). -/
def wordBytes (v : Word) : List Byte :=
  [v.extractLsb' 24 8, v.extractLsb' 16 8, v.extractLsb' 8 8, v.extractLsb' 0 8]

/-! ## Slots and entries -/

/-- The channel in slot `id`: none if the slot is closed or `id` is above 7 (R20, R115). -/
def State.channel (s : State) (id : Nat) : Option Channel := (s.chan[id]?).getD none

/-- The receiver that an operand of `SETRX` registers: none for a null callback, whatever the tags (R71, R111). -/
def rxOf : RxOperand → Option Receiver
  | .none => none
  | .tags enable rx => if enable then some rx else none

/-- Put a channel, or none, in slot `id`; no slot is changed if `id` is above 7. -/
def State.setChannel (s : State) (id : Nat) (c : Option Channel) : State :=
  { s with chan := s.chan.setIfInBounds id c }

/-- The oldest entry. -/
def Fifo.head {α : Type} (f : Fifo α) : α := f.slots[0]

/-- The live entries, oldest first. -/
def Fifo.live {α : Type} (f : Fifo α) : List α := f.slots.toList.take f.len

/-- Put `x` in slot `i`. -/
def Fifo.put {α : Type} (f : Fifo α) (i : Fin 3) (x : α) : Fifo α := { f with slots := f.slots.set i x }

/-- The free slot that becomes the new tail is `i`; it now holds `x`. -/
def Fifo.push {α : Type} (f : Fifo α) (i : Fin 3) (x : α) : Fifo α :=
  { slots := f.slots.set i x, len := f.len + 1 }

/-- Remove the oldest entry: the slots rotate, and the removed slot becomes the last free one, holding `x`. -/
def Fifo.pop {α : Type} (f : Fifo α) (x : α) : Fifo α :=
  { slots := #v[f.slots[1], f.slots[2], x], len := f.len - 1 }

/-- The DATA encode buffer of window slot `i`. -/
def State.winFrame (s : State) (i : Fin 3) : CodecBuf := s.win.slots[i].frame

/-- Put a DATA encode buffer in window slot `i`. -/
def State.setWinFrame (s : State) (i : Fin 3) (E : CodecBuf) : State :=
  { s with win := s.win.put i { s.win.slots[i] with frame := E } }

/-- The ACK encode buffer of ACK queue slot `i`. -/
def State.ackFrame (s : State) (i : Fin 3) : CodecBuf := s.ackQ.slots[i]

/-- Put an ACK encode buffer in ACK queue slot `i`. -/
def State.setAckFrame (s : State) (i : Fin 3) (E : CodecBuf) : State := { s with ackQ := s.ackQ.put i E }

end Sys2Proof.Machine
end

