-- ==== Sys2Proof/Machine/Flags.lean ====
section
/-! DEFINITION. The tests the block makes, and the flags and answers it gives. The block has no condition codes: its
flags are `syncSent`, `more`, and whether a slot is occupied and a receiver registered (R31). -/

namespace Sys2Proof.Machine

/-! ## The classifiers (R98 to R102) -/

def isSyncByte (b : Byte) : Bool := b == 0x2C#8
def isEoaByte (b : Byte) : Bool := b == 0x01#8
def isEodByte (b : Byte) : Bool := b == 0x02#8
def isAckByte (b : Byte) : Bool := (b &&& 0xC0#8) == 0x40#8
def isDataByte (b : Byte) : Bool := (b &&& 0x80#8) == 0x80#8

/-- Whether a byte is of a kind's payload class. -/
def Kind.isPayload : Kind → Byte → Bool
  | .ack => isAckByte
  | .data => isDataByte

/-! ## The codec's tests -/

/-- A push is accepted: both indexes that it writes lie in the buffer (R83, D6). -/
def CodecBuf.hasRoom (k : Kind) (E : CodecBuf) : Bool := decide (E.count + 2 ≤ k.cap)

/-- The bytes that `END` appends: the terminator, and the partly filled byte if there is one (R96). -/
def CodecBuf.endNeed (E : CodecBuf) : Nat := 1 + (if E.step = 0 then 0 else 1)

/-- `END` is accepted (R96, R97, D6). -/
def CodecBuf.hasEndRoom (k : Kind) (E : CodecBuf) : Bool := decide (E.count + E.endNeed ≤ k.cap)

/-- How many original bytes a string of encoded bytes holds: its leading payload bytes carry `W` bits each (R90, R91). -/
def originalCount (k : Kind) (E : List Byte) : Nat := (E.takeWhile k.isPayload).length * k.width / 8

/-- `rxAck` holds a valid ACK frame (R144). -/
def ackFrameValid (D : CodecBuf) : Bool := D.crc == 0 && D.count == ackFrameLen

/-- `rxData` holds a valid data frame (R145, C2). -/
def dataFrameValid (D : CodecBuf) : Bool := D.crc == 0 && decide (dataMinLen ≤ D.count)

/-! ## The scheduler's tests -/

/-- The deadline is reached: the 32-bit difference, read as signed, is not negative (R122, R130). -/
def timedOut (now deadline : Time) : Bool := !(now - deadline).msb

/-- Free bytes of a channel's queue (R22). -/
def Channel.space (c : Channel) : Nat := txqCap - c.q.length

/-- A channel with a full frame's worth queued, or with something queued and no more to follow (R123). -/
def Channel.eligible (c : Channel) : Bool := decide (maxPayload ≤ c.q.length) || (decide (0 < c.q.length) && !c.more)

/-- The duration of a frame with `len` payload bytes: `T_BASE + (len * NUM) div DEN`, wrapped (R125). -/
def frameDuration (len : Nat) : Time :=
  BitVec.ofNat 32 (Config.tBase + len * Config.tPerByteNum / Config.tPerByteDen)

/-- The deadline of a retransmitted frame (R122). -/
def rearmed (now : Time) : Time := now + BitVec.ofNat 32 Config.tRetx

/-! ## Flags of R31 -/

/-- Slot `id` is occupied. -/
def State.occupied (s : State) (id : Nat) : Bool := (s.channel id).isSome

/-- The receiver of slot `id`, if the slot is open and one is registered (R24, R145). -/
def State.receiver (s : State) (id : Nat) : Option Receiver := (s.channel id).bind (·.rx)

/-! ## Answers (R72) -/

/-- Answer on the port the command came from. -/
def State.answer (s : State) (st : Status) (v : Value) : State := { s with answers := s.answers ++ [⟨st, v⟩] }

/-- Done, no value. -/
def State.done (s : State) : State := s.answer .ok .none

/-- Done, with a number. -/
def State.result (s : State) (n : Word) : State := s.answer .ok (.num n)

/-- Done, with a Boolean: the classifiers, which have no failure (R98 to R102). -/
def State.verdict (s : State) (b : Bool) : State := s.answer .ok (.bool b)

/-- An internal operation's `ok`: `false` is its failure result (R72). -/
def State.outcome (s : State) (ok : Bool) : State := s.answer (if ok then .ok else .fail) (.bool ok)

/-- Not executed at all (R72). -/
def State.refuse (s : State) : State := s.answer .refused .none

end Sys2Proof.Machine
end

