-- ==== Sys2Proof/Machine/Ops.lean ====
section
/-! DEFINITION. The shared operations, each once: the codec (40_codec.md), the transport (R170 to R173), the channels
(41_channel.md), the scheduler (42_scheduler.md), the delivery with the commands nested in it (R148, R52), and the
engine (43_engine.md). None of them answers on a port, but for the channel commands, which may be nested. -/

namespace Sys2Proof.Machine

/-! ## Codec buffers -/

/-- Flush: empty, and the next byte is the first of a frame (R88, R89, R92, R93). -/
def CodecBuf.flush (_ : CodecBuf) : CodecBuf := { bytes := [], count := 0, step := 0, crc := crcInit }

/-- `ENC_A.PUSH` and `ENC_D.PUSH` (R84, R85); no effect when there is no room (R83). The byte at `count` is assigned at
step 0 and or-ed at any other, the byte above it is seeded; the last push of a super-group completes both. -/
def CodecBuf.encPush (k : Kind) (E : CodecBuf) (b : Byte) : CodecBuf :=
  if E.hasRoom k then
    let cur := (if E.step = 0 then k.tag else E.get E.count) ||| hiPart k E.step b
    let seed := k.tag ||| loPart k E.step b
    let last : Bool := decide (E.step + 1 = k.group)
    { bytes := E.bytes.take E.count ++ [cur, seed]
      count := if last then E.count + 2 else E.count + 1
      step := if last then 0 else E.step + 1
      crc := crcStep E.crc b }
  else E

/-- Pushes in sequence. -/
def CodecBuf.encPushAll (k : Kind) (E : CodecBuf) (bs : List Byte) : CodecBuf := bs.foldl (CodecBuf.encPush k) E

/-- Whether every push of a sequence is accepted. -/
def CodecBuf.encAccepts (k : Kind) : CodecBuf → List Byte → Bool
  | _, [] => true
  | E, b :: bs => E.hasRoom k && CodecBuf.encAccepts k (E.encPush k b) bs

/-- `ENC_A.PUSH32` and `ENC_D.PUSH32`: four pushes, most significant byte first; no roll-back (R86, R87, D9). -/
def CodecBuf.encPush32 (k : Kind) (E : CodecBuf) (v : Word) : CodecBuf := E.encPushAll k (wordBytes v)

/-- `ENC_A.END` and `ENC_D.END`: the partly filled byte counts as complete, then the terminator; no effect when there is
no room (R96, R97). DESIGN CHOICE (log 17): after an `END`, a push or a second `END` runs as at any other time, the
terminator being one more complete byte; U3 lets a model refuse it instead. -/
def CodecBuf.encEnd (k : Kind) (E : CodecBuf) : CodecBuf :=
  if E.hasEndRoom k then
    let n := if E.step = 0 then E.count else E.count + 1
    { bytes := E.bytes.take n ++ [k.terminator], count := n + 1, step := 0, crc := E.crc }
  else E

/-- `DEC_A.PUSH` and `DEC_D.PUSH` (R90, R91); no effect when there is no room (R83). -/
def CodecBuf.decPush (k : Kind) (D : CodecBuf) (e : Byte) : CodecBuf :=
  let p := payloadBits k e
  if D.hasRoom k then
    if D.step = 0 then { D with bytes := D.bytes.take D.count ++ [seeding k 0 p], step := 1 }
    else
      let b := D.get D.count ||| completing k D.step p
      if D.step + 1 < k.positions then
        { bytes := D.bytes.take D.count ++ [b, seeding k D.step p]
          count := D.count + 1, step := D.step + 1, crc := crcStep D.crc b }
      else
        { bytes := D.bytes.take D.count ++ [b], count := D.count + 1, step := 0, crc := crcStep D.crc b }
  else D

/-- `BUILD_ACK` (R76): flush, the sequence number, the register as it then stands, the terminator. -/
def CodecBuf.buildAck (E : CodecBuf) (seq : Byte) : CodecBuf :=
  let m := E.flush.encPush .ack seq
  (m.encPush32 .ack m.crc).encEnd .ack

/-- `BUILD_DATA` (R76): flush, the sequence number, the channel, the payload, the register as it then stands, the
terminator. -/
def CodecBuf.buildData (E : CodecBuf) (seq ch : Byte) (payload : List Byte) : CodecBuf :=
  let m := ((E.flush.encPush .data seq).encPush .data ch).encPushAll .data payload
  (m.encPush32 .data m.crc).encEnd .data

/-! ## The transport and the clock -/

/-- `Transport.transmit`: the transport takes the first bytes, and says how many (R170). -/
def Link.transmit (l : Link) (bs : List Byte) : Nat × Link :=
  match l.accepts with
  | n :: rest => (min n bs.length, { l with accepts := rest, tx := l.tx ++ bs.take n })
  | [] =>
    let n := Config.freeAccepted l.asked
    (min n bs.length, { l with asked := l.asked + 1, tx := l.tx ++ bs.take n })

/-- `Transport.txLevel` (R172). -/
def Link.askLevel (l : Link) : Nat × Link :=
  match l.levels with
  | n :: rest => (n, { l with levels := rest })
  | [] => (Config.freeLevel l.asked, { l with asked := l.asked + 1 })

/-- `Transport.now` (R173). -/
def Link.askNow (l : Link) : Time × Link :=
  match l.clock with
  | t :: rest => (t, { l with clock := rest })
  | [] => (Config.freeNow l.asked, { l with asked := l.asked + 1 })

/-- A drain that starts now does not end: no call of `Transport.receive` finds nothing pending (R190). -/
def Link.drainNeverEnds (l : Link) : Bool := l.rxEndless && l.rx.all (fun bs => !bs.isEmpty)

/-! ## Channel commands (41_channel.md); each answers, since each may be nested in a delivery -/

/-- The common precondition: a command on a closed slot, or on `id` above 7, is refused (R115). -/
def State.onChannel (s : State) (id : Byte) (f : Channel → State) : State :=
  match s.channel id.toNat with
  | none => s.refuse
  | some c => f c

/-- The bytes of an offer that fit: the first `min(len, space)` (R110). -/
def Channel.accepted (c : Channel) (len : BitVec 16) (data : List Byte) : List Byte :=
  data.take (min len.toNat c.space)

/-- `SEND` (R110). -/
def State.sendCmd (s : State) (id : Byte) (len : BitVec 16) (more : Bool) (data : List Byte) : State :=
  s.onChannel id fun c =>
    let taken := c.accepted len data
    (s.setChannel id.toNat (some { c with q := c.q ++ taken, more := more })).result (BitVec.ofNat 32 taken.length)

/-- `SETRX` (R111). -/
def State.setrxCmd (s : State) (id : Byte) (rx : Option Receiver) : State :=
  s.onChannel id fun c => (s.setChannel id.toNat (some { c with rx := rx })).done

/-- `TXSIZE` (R112). -/
def State.txsizeCmd (s : State) (id : Byte) : State :=
  s.onChannel id fun _ => s.result (BitVec.ofNat 32 txqCap)

/-- `TXSPACE` (R113). -/
def State.txspaceCmd (s : State) (id : Byte) : State :=
  s.onChannel id fun c => s.result (BitVec.ofNat 32 c.space)

/-- `TXFLUSH` (R114); `more` stays (D23). -/
def State.txflushCmd (s : State) (id : Byte) : State :=
  s.onChannel id fun c => (s.setChannel id.toNat (some { c with q := [] })).done

/-- `GETNACK` (R129). -/
def State.getnackCmd (s : State) : State := s.result s.nackCount

/-! ## The scheduler -/

/-- `SRESET` (R128). -/
def State.schedReset (s : State) : State :=
  { s with
    ackQ := { slots := s.ackQ.slots.map CodecBuf.flush, len := 0 }
    win := { slots := s.win.slots.map (fun w => { w with frame := w.frame.flush }), len := 0 }
    nackCount := 0
    nextSeq := 0 }

/-- `SCHEDACK` (R127); no effect when the queue is full. -/
def State.schedAck (s : State) (seq : Byte) : State :=
  if h : s.ackQ.len < 3 then
    { s with ackQ := s.ackQ.push ⟨s.ackQ.len, h⟩ (s.ackQ.slots[s.ackQ.len].buildAck seq) }
  else s

/-- Whether `SCHEDACK` finds room (R127). -/
def State.ackRoom (s : State) : Bool := decide (s.ackQ.len < fifoDepth)

/-- The sequence number inside a built data frame, decoded from its bytes (R126). DESIGN CHOICE (log 19): where the frame was
rewritten on the test port and holds no original byte 0, for which R95 and D10 refuse the call and R126 says nothing, R95's
formula is applied to its first two bytes all the same. -/
def WinEntry.seq (w : WinEntry) : Byte := originalByte .data w.frame.get 0

/-- `ACKX` finds its frame: the window is not empty and the oldest frame carries the number (R126). -/
def State.ackMatches (s : State) (seq : Byte) : Bool := decide (0 < s.win.len) && s.win.head.seq == seq

/-- `ACKX` (R126); no effect when the number is not the oldest frame's. -/
def State.ackXfer (s : State) (seq : Byte) : State :=
  if s.ackMatches seq then
    { s with win := s.win.pop { s.win.head with frame := s.win.head.frame.flush }, nackCount := 0 }
  else s

/-- `GETNEXT` step 1: the oldest queued ACK frame, removed (R121). -/
def State.sendQueuedAck (s : State) : Option Frame × State :=
  (some ⟨.ack, s.ackQ.head.complete⟩, { s with ackQ := s.ackQ.pop s.ackQ.head })

/-- `GETNEXT` step 2: the oldest in-flight frame again, unmodified (R122). -/
def State.retransmit (s : State) (now : Time) : Option Frame × State :=
  (some ⟨.data, s.win.head.frame.complete⟩,
   { s with win := s.win.put 0 { s.win.head with deadline := rearmed now }, nackCount := s.nackCount + 1 })

/-- `GETNEXT` step 3, the choice of channel: the lowest eligible one (R123). -/
def State.firstEligible (s : State) : Option (Nat × Channel) :=
  (List.range 8).findSome? fun id =>
    match s.channel id with
    | some c => if c.eligible then some (id, c) else none
    | none => none

/-- `GETNEXT` step 3, the build, in the free window slot `t` (R125). -/
def State.buildNew (s : State) (now : Time) (id : Nat) (c : Channel) (t : Fin 3) : Option Frame × State :=
  let payload := c.q.take maxPayload
  let frame := (s.winFrame t).buildData s.nextSeq (BitVec.ofNat 8 id) payload
  let duration := frameDuration payload.length
  (some ⟨.data, frame.complete⟩,
   { s.setChannel id (some { c with q := c.q.drop maxPayload }) with
     nextSeq := s.nextSeq + 1
     win := s.win.push t { frame := frame, duration := duration, deadline := now + duration } })

/-- `GETNEXT`: pending ACK, then timed-out retransmission, then new data while the window has a free slot; the first that
applies acts, and if none does nothing changes (R120, R124). -/
def State.getNext (s : State) (now : Time) : Option Frame × State :=
  if 0 < s.ackQ.len then s.sendQueuedAck
  else if 0 < s.win.len ∧ timedOut now s.win.head.deadline = true then s.retransmit now
  else
    match s.firstEligible with
    | none => (none, s)
    | some (id, c) => if h : s.win.len < 3 then s.buildNew now id c ⟨s.win.len, h⟩ else (none, s)

/-! ## The delivery -/

/-- A command that the host issues inside a delivery (R52, R165). The six commands that R52 allows have their effect;
any other, a reserved or an internal code, and a transaction that is no command at all are refused (R73, F22, D35). -/
def State.nestedCmd (s : State) (bytes : List Byte) : State :=
  match decodeCmdOn .host bytes with
  | .ok (.send id len more data) => s.sendCmd id len more data
  | .ok (.setrx id rx) => s.setrxCmd id (rxOf rx)
  | .ok (.txsize id) => s.txsizeCmd id
  | .ok (.txspace id) => s.txspaceCmd id
  | .ok (.txflush id) => s.txflushCmd id
  | .ok .getnack => s.getnackCmd
  | _ => s.refuse

/-- The delivery event goes out (R148, R165). Nothing is saved and no mode changes. -/
def State.deliverEntry (s : State) (ch : Byte) (rx : Receiver) (payload : List Byte) : State :=
  { s with delivered := s.delivered ++ [⟨ch, rx, payload⟩] }

/-- The event is outstanding: the host issues its nested commands, in order, and ends it (R166). -/
def State.deliverReturn (s : State) : State :=
  match s.nested with
  | [] => s
  | cmds :: rest => cmds.foldl State.nestedCmd { s with nested := rest }

/-- `DELIVER` (R148). -/
def State.deliver (s : State) (ch : Byte) (rx : Receiver) (payload : List Byte) : State :=
  (s.deliverEntry ch rx payload).deliverReturn

/-! ## The engine: inbound bytes -/

/-- Both decoders flushed (R138, R142). -/
def State.flushDecoders (s : State) : State := { s with rxAck := s.rxAck.flush, rxData := s.rxData.flush }

/-- `RESYNC` (R142). -/
def State.doResync (s : State) : State := { s.flushDecoders.schedReset with expectedSeq := 0 }

/-- Any byte but SYNC resets the consecutive-SYNC counter (R140). -/
def State.endSyncRun (s : State) : State := { s with syncCount := 0 }

/-- A SYNC byte: the third in a row resynchronises (R141). -/
def State.rxSync (s : State) : State :=
  if syncRxDetect ≤ s.syncCount.toNat + 1 then { s.doResync with syncCount := 0 }
  else { s with syncCount := s.syncCount + 1 }

/-- An ACK payload byte (R143). -/
def State.rxAckByte (s : State) (b : Byte) : State := { s with rxAck := s.rxAck.decPush .ack b }

/-- A DATA payload byte (R146). -/
def State.rxDataByte (s : State) (b : Byte) : State := { s with rxData := s.rxData.decPush .data b }

/-- The end of an ACK frame (R144). -/
def State.rxEndOfAck (s : State) : State :=
  let t := if ackFrameValid s.rxAck then s.ackXfer (s.rxAck.get 0) else s
  { t with rxAck := t.rxAck.flush }

/-- The payload of the data frame in `rxData`: between the two header bytes and the four CRC bytes (R145, D33). -/
def State.rxPayload (s : State) : List Byte := (s.rxData.bytes.drop 2).take (s.rxData.count - 6)

/-- The payload in `rxData` goes to its channel's receiver; it is dropped if the channel number is 8 or above, the slot
closed or no receiver registered (R145, D21). -/
def State.deliverPayload (s : State) : State :=
  match s.receiver (s.rxData.get 1).toNat with
  | some rx => s.deliver (s.rxData.get 1) rx s.rxPayload
  | none => s

/-- An in-sequence data frame: delivered or dropped, and either way the expected number advances (R145, D21). -/
def State.acceptInSequence (s : State) : State :=
  { s.deliverPayload with expectedSeq := s.deliverPayload.expectedSeq + 1 }

/-- A valid data frame: acknowledged always, accepted only in sequence (R145). -/
def State.acceptData (s : State) : State :=
  let seq := s.rxData.get 0
  let t := s.schedAck seq
  if seq = t.expectedSeq then t.acceptInSequence else t

/-- The end of a data frame (R145). -/
def State.rxEndOfData (s : State) : State :=
  let t := if dataFrameValid s.rxData then s.acceptData else s
  { t with rxData := t.rxData.flush }

/-- `RXBYTE` (R140). -/
def State.rxByte (s : State) (b : Byte) : State :=
  if isSyncByte b then s.rxSync
  else
    let t := s.endSyncRun
    if isAckByte b then t.rxAckByte b
    else if isEoaByte b then t.rxEndOfAck
    else if isDataByte b then t.rxDataByte b
    else if isEodByte b then t.rxEndOfData
    else t

/-- `RXDRAIN` over the answers of `Transport.receive`: it ends at the first that finds nothing pending (R139). -/
def State.drainLoop : List (List Byte) → State → State
  | [], s => { s with link := { s.link with rx := [] } }
  | [] :: rest, s => { s with link := { s.link with rx := rest } }
  | (b :: bs) :: rest, s => State.drainLoop rest ((b :: bs).foldl State.rxByte s)

/-- `RXDRAIN` (R139), when it ends. -/
def State.rxDrain (s : State) : State := State.drainLoop s.link.rx s

/-! ## The engine: `TASK` -/

/-- Hand bytes to the transport. -/
def State.transmit (s : State) (bs : List Byte) : Nat × State :=
  let a := s.link.transmit bs
  (a.1, { s with link := a.2 })

/-- `SYNCBURST` (R138): five SYNC bytes in one call, and success is all five accepted (D17). -/
def State.syncBurstStep (s : State) : State :=
  if s.syncSent then s
  else
    let a := s.transmit syncBurst
    if a.1 = 5 then { a.2.schedReset.flushDecoders with syncSent := true, expectedSeq := 0 } else a.2

/-- Hand a frame over: flush `rxAck`, then transmit; the accepted count is ignored (R149, D19, D20). -/
def State.handOver (s : State) (f : Frame) : State :=
  (State.transmit { s with rxAck := s.rxAck.flush } f.bytes).2

/-- Ask the scheduler, at the clock's time, and hand over what it returns (R149). -/
def State.scheduleFrame (s : State) : State :=
  let a := s.link.askNow
  let r := State.getNext { s with link := a.2 } a.1
  match r.1 with
  | none => r.2
  | some f => r.2.handOver f

/-- `TXSTEP` (R149): at or below the low-water mark the scheduler is asked. -/
def State.txStep (s : State) : State :=
  let a := s.link.askLevel
  let t : State := { s with link := a.2 }
  if a.1 ≤ txLowWater then t.scheduleFrame else t

/-- `TASK` (R137): the burst, then, in the Synchronized state only, the drain and one frame (D18). -/
def State.taskStep (s : State) : State :=
  let t := s.syncBurstStep
  if t.syncSent then t.rxDrain.txStep else t

/-- `TASK` does not return (R190): it is, or becomes, Synchronized, and its drain does not end. -/
def State.taskNeverEnds (s : State) : Bool := s.link.drainNeverEnds && s.syncBurstStep.syncSent

end Sys2Proof.Machine
end

