-- ==== Sys2Proof/Machine/Channel.lean ====
section
/-! DEFINITION. The channel commands (41_channel.md). -/

namespace Sys2Proof.Machine

/-- `SEND id, len, more, data -> accepted` (R110). -/
def execSend (id : Byte) (len : BitVec 16) (more : Bool) (data : List Byte) (s : State) :
    Host.Outcome State Fault Refusal := .next (s.sendCmd id len more data)

/-- `SETRX id, rx` (R111). -/
def execSetrx (id : Byte) (rx : RxOperand) (s : State) : Host.Outcome State Fault Refusal :=
  .next (s.setrxCmd id (rxOf rx))

/-- `TXSIZE id -> n` (R112). -/
def execTxsize (id : Byte) (s : State) : Host.Outcome State Fault Refusal := .next (s.txsizeCmd id)

/-- `TXSPACE id -> n` (R113). -/
def execTxspace (id : Byte) (s : State) : Host.Outcome State Fault Refusal := .next (s.txspaceCmd id)

/-- `TXFLUSH id` (R114). -/
def execTxflush (id : Byte) (s : State) : Host.Outcome State Fault Refusal := .next (s.txflushCmd id)

end Sys2Proof.Machine
end

