-- ==== Sys2Proof/Machine/Codec.lean ====
section
/-! DEFINITION. The codec operations (40_codec.md): their effect on the buffer they name, and their answer on the
unit-level test port. -/

namespace Sys2Proof.Machine

/-- `CRC32.STEP c, b -> c'` (R80). -/
def execCrc32Step (c : Word) (b : Byte) (s : State) : Host.Outcome State Fault Refusal := .next (s.result (crcStep c b))

/-- `IS_SYNC b -> bool` (R98). -/
def execIsSync (b : Byte) (s : State) : Host.Outcome State Fault Refusal := .next (s.verdict (isSyncByte b))

/-- `IS_EOA b -> bool` (R99). -/
def execIsEoa (b : Byte) (s : State) : Host.Outcome State Fault Refusal := .next (s.verdict (isEoaByte b))

/-- `IS_EOD b -> bool` (R100). -/
def execIsEod (b : Byte) (s : State) : Host.Outcome State Fault Refusal := .next (s.verdict (isEodByte b))

/-- `IS_ACK b -> bool` (R101). -/
def execIsAck (b : Byte) (s : State) : Host.Outcome State Fault Refusal := .next (s.verdict (isAckByte b))

/-- `IS_DATA b -> bool` (R102). -/
def execIsData (b : Byte) (s : State) : Host.Outcome State Fault Refusal := .next (s.verdict (isDataByte b))

/-- `ENC_A.PUSH E, b -> ok` (R84). -/
def execEncAPush (e : Fin 3) (b : Byte) (s : State) : Host.Outcome State Fault Refusal :=
  .next ((s.setAckFrame e ((s.ackFrame e).encPush .ack b)).outcome ((s.ackFrame e).hasRoom .ack))

/-- `ENC_A.PUSH32 E, v -> ok` (R86). -/
def execEncAPush32 (e : Fin 3) (v : Word) (s : State) : Host.Outcome State Fault Refusal :=
  .next ((s.setAckFrame e ((s.ackFrame e).encPush32 .ack v)).outcome ((s.ackFrame e).encAccepts .ack (wordBytes v)))

/-- `ENC_A.END E -> ok` (R96). -/
def execEncAEnd (e : Fin 3) (s : State) : Host.Outcome State Fault Refusal :=
  .next ((s.setAckFrame e ((s.ackFrame e).encEnd .ack)).outcome ((s.ackFrame e).hasEndRoom .ack))

/-- `ENC_A.FLUSH E` (R88). -/
def execEncAFlush (e : Fin 3) (s : State) : Host.Outcome State Fault Refusal :=
  .next (s.setAckFrame e (s.ackFrame e).flush).done

/-- `ENC_D.PUSH E, b -> ok` (R85). -/
def execEncDPush (e : Fin 3) (b : Byte) (s : State) : Host.Outcome State Fault Refusal :=
  .next ((s.setWinFrame e ((s.winFrame e).encPush .data b)).outcome ((s.winFrame e).hasRoom .data))

/-- `ENC_D.PUSH32 E, v -> ok` (R87). -/
def execEncDPush32 (e : Fin 3) (v : Word) (s : State) : Host.Outcome State Fault Refusal :=
  .next ((s.setWinFrame e ((s.winFrame e).encPush32 .data v)).outcome ((s.winFrame e).encAccepts .data (wordBytes v)))

/-- `ENC_D.END E -> ok` (R97). -/
def execEncDEnd (e : Fin 3) (s : State) : Host.Outcome State Fault Refusal :=
  .next ((s.setWinFrame e ((s.winFrame e).encEnd .data)).outcome ((s.winFrame e).hasEndRoom .data))

/-- `ENC_D.FLUSH E` (R89). -/
def execEncDFlush (e : Fin 3) (s : State) : Host.Outcome State Fault Refusal :=
  .next (s.setWinFrame e (s.winFrame e).flush).done

/-- `DEC_A.PUSH D, e -> ok` (R90). -/
def execDecAPush (b : Byte) (s : State) : Host.Outcome State Fault Refusal :=
  .next ((s.rxAckByte b).outcome (s.rxAck.hasRoom .ack))

/-- `DEC_A.FLUSH D` (R92). -/
def execDecAFlush (s : State) : Host.Outcome State Fault Refusal := .next { s with rxAck := s.rxAck.flush }.done

/-- `DEC_D.PUSH D, e -> ok` (R91). -/
def execDecDPush (b : Byte) (s : State) : Host.Outcome State Fault Refusal :=
  .next ((s.rxDataByte b).outcome (s.rxData.hasRoom .data))

/-- `DEC_D.FLUSH D` (R93). -/
def execDecDFlush (s : State) : Host.Outcome State Fault Refusal := .next { s with rxData := s.rxData.flush }.done

/-- `DECODE_A E[], n -> B` (R94): refused unless `n` is below the frame's original byte count (F4, D10). -/
def execDecodeA (frame : List Byte) (n : BitVec 16) (s : State) : Host.Outcome State Fault Refusal :=
  .next (if n.toNat < originalCount .ack frame
    then s.result ((originalByte .ack (fun i => frame.getD i (Config.staleByte i)) n.toNat).setWidth 32) else s.refuse)

/-- `DECODE_D E[], n -> B` (R95): refused unless `n` is below the frame's original byte count (F4, D10). -/
def execDecodeD (frame : List Byte) (n : BitVec 16) (s : State) : Host.Outcome State Fault Refusal :=
  .next (if n.toNat < originalCount .data frame
    then s.result ((originalByte .data (fun i => frame.getD i (Config.staleByte i)) n.toNat).setWidth 32) else s.refuse)

end Sys2Proof.Machine
end

