-- ==== Sys2Proof/Machine/Engine.lean ====
section
/-! DEFINITION. The engine's commands and steps (43_engine.md) and their answers. -/

namespace Sys2Proof.Machine

/-- A newly opened channel (R20, R135, D23). -/
def Channel.fresh : Channel := { q := [], more := false, rx := none }

/-- `OPEN id -> ok` (R135): fails if `id` is above 7 or the slot is occupied. -/
def execOpen (id : Byte) (s : State) : Host.Outcome State Fault Refusal :=
  .next (if 7 < id.toNat ∨ s.occupied id.toNat = true then s.answer .fail .none
    else (s.setChannel id.toNat (some Channel.fresh)).done)

/-- `CLOSE id` (R136): nothing for none, refused on a slot that is not open. -/
def execClose (id : Option Byte) (s : State) : Host.Outcome State Fault Refusal :=
  .next (match id with
    | none => s.done
    | some id => s.onChannel id fun _ => (s.setChannel id.toNat none).done)

/-- `TASK` (R137): it returns, unless its drain does not end (R190). -/
def execTask (s : State) : Host.Outcome State Fault Refusal :=
  if s.taskNeverEnds then .fault .drainNeverEnds else .next s.taskStep.done

/-- `SYNCBURST` (R138). -/
def execSyncburst (s : State) : Host.Outcome State Fault Refusal := .next s.syncBurstStep.done

/-- `RXDRAIN` (R139): it returns, unless the inbound bytes come without pause (R190). -/
def execRxdrain (s : State) : Host.Outcome State Fault Refusal :=
  if s.link.drainNeverEnds then .fault .drainNeverEnds else .next s.rxDrain.done

/-- `RXBYTE b` (R140). -/
def execRxbyte (b : Byte) (s : State) : Host.Outcome State Fault Refusal := .next (s.rxByte b).done

/-- `RESYNC` (R142). -/
def execResync (s : State) : Host.Outcome State Fault Refusal := .next s.doResync.done

/-- `TXSTEP` (R149). -/
def execTxstep (s : State) : Host.Outcome State Fault Refusal := .next s.txStep.done

end Sys2Proof.Machine
end

