-- ==== Sys2Proof/Machine/Scheduler.lean ====
section
/-! DEFINITION. The scheduler operations (42_scheduler.md) and their answers. -/

namespace Sys2Proof.Machine

/-- What `GETNEXT` answers: the frame, or the failure result none (R120, R72). -/
def State.answerFrame (s : State) : Option Frame → State
  | some f => s.answer .ok (.frame f)
  | none => s.answer .fail .none

/-- `GETNEXT now -> frame or none` (R120). -/
def execGetnext (now : Time) (s : State) : Host.Outcome State Fault Refusal :=
  .next ((s.getNext now).2.answerFrame (s.getNext now).1)

/-- `ACKX seq -> ok` (R126). -/
def execAckx (seq : Byte) (s : State) : Host.Outcome State Fault Refusal :=
  .next ((s.ackXfer seq).outcome (s.ackMatches seq))

/-- `SCHEDACK seq -> ok` (R127). -/
def execSchedack (seq : Byte) (s : State) : Host.Outcome State Fault Refusal :=
  .next ((s.schedAck seq).outcome s.ackRoom)

/-- `SRESET` (R128). -/
def execSreset (s : State) : Host.Outcome State Fault Refusal := .next s.schedReset.done

/-- `GETNACK -> n` (R129). -/
def execGetnack (s : State) : Host.Outcome State Fault Refusal := .next s.getnackCmd

end Sys2Proof.Machine
end

