-- ==== Sys2Proof/Machine/Wire.lean ====
section
/-! DEFINITION. The inbound bytes as instructions: the whole of what the byte classifier does with a byte of the class,
the clearing of the consecutive-SYNC counter by R140 included (log 11). A wire byte gets no answer. None
looks at `syncSent`: when a byte is presented is log 18. -/

namespace Sys2Proof.Machine

/-- The byte of `W.DATA`: tag and payload (R65). -/
def dataWireByte (d : BitVec 7) : Byte := 1#1 ++ d

/-- The byte of `W.ACK`: tag and payload (R64). -/
def ackWireByte (a : BitVec 6) : Byte := 1#2 ++ a

/-- `W.DATA` (R146). -/
def execWData (d : BitVec 7) (s : State) : Host.Outcome State Fault Refusal :=
  .next (s.endSyncRun.rxDataByte (dataWireByte d))

/-- `W.ACK` (R143). -/
def execWAck (a : BitVec 6) (s : State) : Host.Outcome State Fault Refusal :=
  .next (s.endSyncRun.rxAckByte (ackWireByte a))

/-- `W.SYNC` (R141). -/
def execWSync (s : State) : Host.Outcome State Fault Refusal := .next s.rxSync

/-- `W.EOA` (R144). -/
def execWEoa (s : State) : Host.Outcome State Fault Refusal := .next s.endSyncRun.rxEndOfAck

/-- `W.EOD` (R145). -/
def execWEod (s : State) : Host.Outcome State Fault Refusal := .next s.endSyncRun.rxEndOfData

/-- `W.GARBAGE` (R147): silently discarded. -/
def execWGarbage (s : State) : Host.Outcome State Fault Refusal := .next s.endSyncRun

end Sys2Proof.Machine
end

