-- ==== Sys2Proof/Machine/Dispatch.lean ====
section
/-! DEFINITION. `exec`: one arm per instruction, each one call of the instruction's meaning. -/

namespace Sys2Proof.Machine

def exec (i : Instr) (s : State) : Host.Outcome State Fault Refusal :=
  match i with
  | .wData d => Sys2Proof.Machine.execWData d s
  | .wAck a => Sys2Proof.Machine.execWAck a s
  | .wSync => Sys2Proof.Machine.execWSync s
  | .wEoa => Sys2Proof.Machine.execWEoa s
  | .wEod => Sys2Proof.Machine.execWEod s
  | .wGarbage _ => Sys2Proof.Machine.execWGarbage s
  | .openSlot id => Sys2Proof.Machine.execOpen id s
  | .closeSlot id => Sys2Proof.Machine.execClose id s
  | .send id len more data => Sys2Proof.Machine.execSend id len more data s
  | .setrx id rx => Sys2Proof.Machine.execSetrx id rx s
  | .txsize id => Sys2Proof.Machine.execTxsize id s
  | .txspace id => Sys2Proof.Machine.execTxspace id s
  | .txflush id => Sys2Proof.Machine.execTxflush id s
  | .task => Sys2Proof.Machine.execTask s
  | .getnack => Sys2Proof.Machine.execGetnack s
  | .encAPush e b => Sys2Proof.Machine.execEncAPush e b s
  | .encAPush32 e v => Sys2Proof.Machine.execEncAPush32 e v s
  | .encAEnd e => Sys2Proof.Machine.execEncAEnd e s
  | .encAFlush e => Sys2Proof.Machine.execEncAFlush e s
  | .decAPush b => Sys2Proof.Machine.execDecAPush b s
  | .decAFlush => Sys2Proof.Machine.execDecAFlush s
  | .decodeA frame n => Sys2Proof.Machine.execDecodeA frame n s
  | .encDPush e b => Sys2Proof.Machine.execEncDPush e b s
  | .encDPush32 e v => Sys2Proof.Machine.execEncDPush32 e v s
  | .encDEnd e => Sys2Proof.Machine.execEncDEnd e s
  | .encDFlush e => Sys2Proof.Machine.execEncDFlush e s
  | .decDPush b => Sys2Proof.Machine.execDecDPush b s
  | .decDFlush => Sys2Proof.Machine.execDecDFlush s
  | .decodeD frame n => Sys2Proof.Machine.execDecodeD frame n s
  | .isSync b => Sys2Proof.Machine.execIsSync b s
  | .isEoa b => Sys2Proof.Machine.execIsEoa b s
  | .isEod b => Sys2Proof.Machine.execIsEod b s
  | .isAck b => Sys2Proof.Machine.execIsAck b s
  | .isData b => Sys2Proof.Machine.execIsData b s
  | .crc32Step c b => Sys2Proof.Machine.execCrc32Step c b s
  | .getnext now => Sys2Proof.Machine.execGetnext now s
  | .ackx seq => Sys2Proof.Machine.execAckx seq s
  | .schedack seq => Sys2Proof.Machine.execSchedack seq s
  | .sreset => Sys2Proof.Machine.execSreset s
  | .syncburst => Sys2Proof.Machine.execSyncburst s
  | .rxdrain => Sys2Proof.Machine.execRxdrain s
  | .rxbyte b => Sys2Proof.Machine.execRxbyte b s
  | .resync => Sys2Proof.Machine.execResync s
  | .txstep => Sys2Proof.Machine.execTxstep s

end Sys2Proof.Machine
end

