-- ==== Sys2Proof/Machine/Step.lean ====
section
/-! DEFINITION. One step: the next transaction is taken from the ports and executed to its end (R46, R50, R175). -/

namespace Sys2Proof.Machine

/-- The transaction that a step takes is no longer pending while it executes. -/
def State.takeRequest (s : State) : State := { s with requests := s.requests.tail }

/-- A transaction that is no instruction of its port: on the command port and the test port it is refused (R72, R73,
F22); on the wire there is no answer. -/
def State.rejectRequest (s : State) (p : Port) : State :=
  match p with
  | .host => s.refuse
  | .test => s.refuse
  | .wire => s

/-- One step. With nothing pending the block is idle and keeps all its state (R180, R177). DESIGN CHOICE (log 18): a byte
presented on the wire port is classified at once, outside any `TASK` and whether or not the engine is Synchronized; `TASK`
itself drains only when Synchronized (R137). -/
def step (s : State) : Host.Outcome State Fault Refusal :=
  match s.requests with
  | [] => .next s
  | r :: _ =>
    match decode r with
    | .ok i => exec i s.takeRequest
    | .error _ => .next (s.takeRequest.rejectRequest r.port)

/-- The transaction of a word of the opcode table: the instruction that `decodeTableWord` reads, presented on its port;
a word that it reads nothing from is presented on the command port as it stands. -/
def tableRequest (nbits w : Nat) : Request :=
  match decodeTableWord nbits w with
  | some i => encode i
  | none => ⟨.host, tableBytes nbits w⟩

/-- `s` with the instruction of a word of the opcode table pending as the next transaction: this stands for the outside
world presenting it (log 4, log 6). -/
def State.withFetchWord (s : State) (nbits w : Nat) : State :=
  { s with requests := tableRequest nbits w :: s.requests }

end Sys2Proof.Machine
end

