-- ==== Sys2Proof/Safety.lean ====
section
/-! DEFINITION. What claims about runs are stated in: the invariants of every state (R14, R29, R32), the invariant of
the built frames (R25, R26, R32), and what a run that never stops is. -/

namespace Sys2Proof.Machine

/-- An encode buffer keeps its ranges (R11, R14): the defined content is the complete bytes and, at a step other than 0,
the partly filled one, and it fits. -/
structure CodecBuf.EncOk (k : Kind) (E : CodecBuf) : Prop where
  step_lt : E.step < k.group
  length_eq : E.bytes.length = E.count + (if E.step = 0 then 0 else 1)
  fits : E.bytes.length ≤ k.cap

/-- A decode buffer keeps its ranges (R12, R14). -/
structure CodecBuf.DecOk (k : Kind) (D : CodecBuf) : Prop where
  step_lt : D.step < k.positions
  length_eq : D.bytes.length = D.count + (if D.step = 0 then 0 else 1)
  fits : D.bytes.length ≤ k.cap

/-- The running CRC of a decode buffer is the CRC of exactly the bytes completed since the last flush (R14). -/
def CodecBuf.CrcOk (D : CodecBuf) : Prop := D.crc = crcOver 0xFFFFFFFF (D.bytes.take D.count)

/-- The invariants of every state, whatever is presented on whichever port: every codec buffer keeps its ranges (R14), at
most three ACK frames are queued and at most three data frames are in flight (R32), a channel's queue holds at most
`TXQ_CAP` bytes (R22), and the consecutive-SYNC counter is 0, 1 or 2 (R29). -/
structure State.Inv (s : State) : Prop where
  rxAck : s.rxAck.DecOk .ack
  rxData : s.rxData.DecOk .data
  ackSlots : ∀ i : Fin 3, s.ackQ.slots[i].EncOk .ack
  winSlots : ∀ i : Fin 3, s.win.slots[i].frame.EncOk .data
  ackLen : s.ackQ.len ≤ fifoDepth
  winLen : s.win.len ≤ fifoDepth
  queues : ∀ id c, s.channel id = some c → c.q.length ≤ txqCap
  syncCount : s.syncCount.toNat ≤ 2

/-- The ACK frame for a sequence number, as a buffer (R68, R76). -/
def builtAck (seq : Byte) : CodecBuf := CodecBuf.empty.buildAck seq

/-- The data frame with a sequence number, a channel and a payload, as a buffer (R67, R76). -/
def builtData (seq ch : Byte) (payload : List Byte) : CodecBuf := CodecBuf.empty.buildData seq ch payload

/-- The invariant of the built frames: every queued ACK entry is the complete ACK frame of some number, and every
in-flight entry is a complete data frame of an existing channel with 1 to 256 payload bytes (R25, R26, R32), the
in-flight frames being numbered consecutively up to the one before `nextSeq` (R27, R125, R126). -/
structure State.FramesOk (s : State) : Prop where
  acks : ∀ i : Fin 3, i.val < s.ackQ.len → ∃ seq, s.ackQ.slots[i] = builtAck seq
  data : ∀ i : Fin 3, i.val < s.win.len → ∃ ch payload, ch.toNat < 8 ∧ 1 ≤ payload.length ∧ payload.length ≤ maxPayload ∧
    s.win.slots[i].frame = builtData (s.nextSeq - BitVec.ofNat 8 (s.win.len - i.val)) ch payload

/-- The next transaction is none of the unit-level test port: the codecs and the scheduler are reached by the engine
alone (R167). -/
def State.offTestPort (s : State) : Prop := ∀ r, s.requests.head? = some r → r.port ≠ .test

/-- The inbound bytes of every drain are finite (R190, U17). -/
def State.finiteInbound (s : State) : Prop := s.link.rxEndless = false

/-- The instructions that may take a frame out of the window: those that reset the scheduler or acknowledge a frame, and
those that classify inbound bytes that do (R53); and those that write an encode buffer directly. -/
def mayTouchFrames : Instr → Bool
  | .ackx _ | .sreset | .resync | .wSync | .wEoa | .rxbyte _ | .rxdrain | .task | .syncburst => true
  | .encDPush _ _ | .encDPush32 _ _ | .encDEnd _ | .encDFlush _ => true
  | .wData _ | .wAck _ | .wEod | .wGarbage _ => false
  | .openSlot _ | .closeSlot _ | .send _ _ _ _ | .setrx _ _ | .txsize _ | .txspace _ | .txflush _ | .getnack => false
  | .encAPush _ _ | .encAPush32 _ _ | .encAEnd _ | .encAFlush _ | .decAPush _ | .decAFlush | .decodeA _ _ => false
  | .decDPush _ | .decDFlush | .decodeD _ _ => false
  | .isSync _ | .isEoa _ | .isEod _ | .isAck _ | .isData _ | .crc32Step _ _ => false
  | .getnext _ | .schedack _ | .txstep => false

/-- The instructions that may deliver a payload: the end of a data frame, and what classifies inbound bytes (R148). -/
def mayDeliver : Instr → Bool
  | .wEod | .rxbyte _ | .rxdrain | .task => true
  | .wData _ | .wAck _ | .wSync | .wEoa | .wGarbage _ => false
  | .openSlot _ | .closeSlot _ | .send _ _ _ _ | .setrx _ _ | .txsize _ | .txspace _ | .txflush _ | .getnack => false
  | .encAPush _ _ | .encAPush32 _ _ | .encAEnd _ | .encAFlush _ | .decAPush _ | .decAFlush | .decodeA _ _ => false
  | .encDPush _ _ | .encDPush32 _ _ | .encDEnd _ | .encDFlush _ | .decDPush _ | .decDFlush | .decodeD _ _ => false
  | .isSync _ | .isEoa _ | .isEod _ | .isAck _ | .isData _ | .crc32Step _ _ => false
  | .getnext _ | .ackx _ | .schedack _ | .sreset | .syncburst | .resync | .txstep => false

/-- The commands that the host may nest in a delivery (R52). -/
def mayNest : Instr → Bool
  | .send _ _ _ _ | .setrx _ _ | .txsize _ | .txspace _ | .txflush _ | .getnack => true
  | .openSlot _ | .closeSlot _ | .task => false
  | .wData _ | .wAck _ | .wSync | .wEoa | .wEod | .wGarbage _ => false
  | .encAPush _ _ | .encAPush32 _ _ | .encAEnd _ | .encAFlush _ | .decAPush _ | .decAFlush | .decodeA _ _ => false
  | .encDPush _ _ | .encDPush32 _ _ | .encDEnd _ | .encDFlush _ | .decDPush _ | .decDFlush | .decodeD _ _ => false
  | .isSync _ | .isEoa _ | .isEod _ | .isAck _ | .isData _ | .crc32Step _ _ => false
  | .getnext _ | .ackx _ | .schedack _ | .sreset | .syncburst | .rxdrain | .rxbyte _ | .resync | .txstep => false

/-- A channel that `GETNEXT` may frame: 256 bytes or more queued, or at least one and `more` false (R123). -/
def readyToSend (c : Channel) : Prop := 256 ≤ c.q.length ∨ (0 < c.q.length ∧ c.more = false)

/-- A round that R131 speaks of: a byte is queued on a channel, `GETNEXT` answers a data frame whose number is `seq`, and
`ACKX` of that number accepts it. -/
def acknowledgedRound (id b : Byte) (now : Time) (s t : State) (seq : Byte) : Prop :=
  ∃ u v f, exec (.send id 1 false [b]) s = .next u ∧ exec (.getnext now) u = .next v ∧
    v.answers = u.answers ++ [⟨.ok, .frame ⟨.data, f⟩⟩] ∧ originalByte .data (fun i => f.getD i 0) 0 = seq ∧
    exec (.ackx seq) v = .next t ∧ t.answers = v.answers ++ [⟨.ok, .bool true⟩]

/-- The codec buffer after bytes have been fed to a flushed decoder of the kind. -/
def decoded (k : Kind) (bs : List Byte) : CodecBuf := bs.foldl (CodecBuf.decPush k) CodecBuf.empty

/-- The state after bytes have arrived and been classified, in order (R139). -/
def State.afterBytes (s : State) (bs : List Byte) : State := bs.foldl State.rxByte s

/-- A run from `s` is safe: it never stops. -/
def State.neverStops (s : State) : Prop := ∀ n, ∃ t, Host.Core.run ⟨State, Fault, Refusal, step, State.reset⟩ n s = .next t

end Sys2Proof.Machine
end

