-- ==== Sys2Proof/Certificates/Slice0/Obligations.lean ====
section
/-! DEFINITION. The statements for the provers. Each docstring names the rule of the spec that the statement formalises,
or says that it is derived; a point that the spec marks as its own decision is named as D<n>. Every statement of what a
command answers rests on the form of the answers that log 13 sets out. -/

open Sys2Proof Sys2Proof.Machine

/-! ## Encoding -/

/-- Derived from R60, R70, R71: decoding the encoding of a well-formed instruction gives it back, with every operand at
every value (the order of the operand bytes is the model's choice, log 5). -/
def Obligations.DecodeOfEncodeGivesInstr : Prop := ∀ i : Instr, i.wf = true → decode (encode i) = .ok i

/-- Derived from R60, R70, R71: what decodes is well-formed, and has this one encoding. -/
def Obligations.EncodeOfDecodeGivesRequest : Prop :=
  ∀ (r : Request) (i : Instr), decode r = .ok i → i.wf = true ∧ encode i = r

/-- Sanity: words written out from R60 and R70 decode to the instructions they stand for. -/
def Obligations.WrittenWordsDecode : Prop :=
  decode ⟨.wire, [0b10100000]⟩ = .ok (.wData 0b0100000) ∧
  decode ⟨.wire, [0b01000101]⟩ = .ok (.wAck 0b000101) ∧
  decode ⟨.wire, [0b00101100]⟩ = .ok .wSync ∧
  decode ⟨.wire, [0b00000010]⟩ = .ok .wEod ∧
  decode ⟨.host, [0b00000001, 0b00000111]⟩ = .ok (.openSlot 7) ∧
  decode ⟨.host, [0b00000011, 0, 0, 3, 1, 0x41, 0x42, 0x43]⟩ = .ok (.send 0 3 true [0x41, 0x42, 0x43]) ∧
  decode ⟨.test, [0b00011001, 2, 0x87, 0x23, 0x10, 0xC0]⟩ = .ok (.encDPush32 2 0x872310C0) ∧
  decode ⟨.test, [0b00110000, 0, 0, 0x04, 0x4D]⟩ = .ok (.getnext 1101)

/-- Derived from R73, the spec's decision D1: which codes are reserved; and a reserved code, and any internal code, presented on the command port, with
whatever bytes behind it, is refused with no state change. -/
def Obligations.ReservedAndInternalCodesRefused : Prop :=
  (∀ c : Byte, Op.ofCode c = none ↔
    (c.toNat = 0x00 ∨ (0x0A ≤ c.toNat ∧ c.toNat ≤ 0x0F) ∨ c.toNat = 0x17 ∨ c.toNat = 0x1F ∨
     (0x25 ≤ c.toNat ∧ c.toNat ≤ 0x27) ∨ (0x29 ≤ c.toNat ∧ c.toNat ≤ 0x2F) ∨ (0x34 ≤ c.toNat ∧ c.toNat ≤ 0x3F) ∨
     0x45 ≤ c.toNat)) ∧
  ∀ (s : State) (c : Byte) (ops : List Byte) (rest : List Request),
    s.requests = ⟨.host, c :: ops⟩ :: rest → (Op.ofCode c = none ∨ 0x10 ≤ c.toNat) →
    step s = .next { s with requests := rest, answers := s.answers ++ [⟨.refused, .none⟩] }

/-! ## Steps and whole runs -/

/-- Derived from R46, R50, R175: a step takes the next transaction and runs the instruction it decodes to, in the state
in which it is no longer pending; a transaction that decodes to none is refused on the command and test ports and has no
effect on the wire (log 5); with nothing pending the state stays. -/
def Obligations.StepRunsDecodedRequest : Prop :=
  (∀ (s : State) (r : Request) (rest : List Request) (i : Instr), s.requests = r :: rest → decode r = .ok i →
    step s = exec i { s with requests := rest }) ∧
  (∀ (s : State) (r : Request) (rest : List Request) (e : DecodeError), s.requests = r :: rest → decode r = .error e →
    step s = .next (if r.port = .wire then { s with requests := rest }
      else { s with requests := rest, answers := s.answers ++ [⟨.refused, .none⟩] })) ∧
  (∀ s : State, s.requests = [] → step s = .next s)

/-- Derived from R180, R35 and the spec's decision D29: the state after reset, and that the block then does nothing. (Deadlines and durations of the empty window, which
R35 leaves unspecified, are not stated, nor the model's reset of the outside world.) -/
def Obligations.ResetStateIsAsSpecified : Prop :=
  (∀ id, State.reset.channel id = none) ∧
  State.reset.rxAck = ⟨[], 0, 0, 0xFFFFFFFF⟩ ∧ State.reset.rxData = ⟨[], 0, 0, 0xFFFFFFFF⟩ ∧
  State.reset.expectedSeq = 0 ∧ State.reset.syncSent = false ∧ State.reset.syncCount = 0 ∧
  (∀ i : Fin 3, State.reset.ackQ.slots[i] = ⟨[], 0, 0, 0xFFFFFFFF⟩) ∧ State.reset.ackQ.len = 0 ∧
  (∀ i : Fin 3, State.reset.win.slots[i].frame = ⟨[], 0, 0, 0xFFFFFFFF⟩) ∧ State.reset.win.len = 0 ∧
  State.reset.nextSeq = 0 ∧ State.reset.nackCount = 0 ∧
  step State.reset = .next State.reset

/-- Derived from R160, R190, U17: every step returns while inbound bytes are finite; a step stops only where a drain does
not end; `RXDRAIN`, and `TASK` in the Synchronized state, do stop there (the fault is the model's form of a hang, log 3). -/
def Obligations.OnlyAnEndlessDrainStops : Prop :=
  (∀ s : State, s.link.rxEndless = false → ∃ t, step s = .next t) ∧
  (∀ (s : State) (r : Refusal), step s ≠ .refused r) ∧
  (∀ (s : State) (f : Fault), step s = .fault f → s.link.rxEndless = true ∧ [] ∉ s.link.rx) ∧
  (∀ s : State, s.link.rxEndless = true → [] ∉ s.link.rx →
    exec .rxdrain s = .fault .drainNeverEnds ∧ (s.syncSent = true → exec .task s = .fault .drainNeverEnds))

/-- The invariants hold at reset. -/
def Obligations.ResetMeetsTheInvariants : Prop := State.reset.Inv ∧ State.reset.FramesOk

/-- Headline, derived from R14, R22, R29, R32: whatever is presented on whichever port, every step keeps the ranges of
every codec buffer, the depths of both queues, the bound of every channel queue and the range of the SYNC counter. -/
def Obligations.EveryStepKeepsTheInvariant : Prop := ∀ s t : State, s.Inv → step s = .next t → t.Inv

/-- Headline, derived from R25, R26, R27, R32, R125 to R127: every step but one of the unit-level test port keeps every
queued ACK entry a complete ACK frame and every window entry a complete data frame of a channel below 8 with 1 to 256
payload bytes, the in-flight frames being numbered consecutively up to the one before `nextSeq`. -/
def Obligations.EveryStepKeepsTheFrames : Prop :=
  ∀ s t : State, s.Inv → s.FramesOk → s.offTestPort → step s = .next t → t.FramesOk

/-- Derived from R14: the running CRC of either decoder stays the CRC of exactly the bytes it has completed, under whatever
is presented on whichever port. -/
def Obligations.EveryStepKeepsTheDecodersCrc : Prop :=
  ∀ s t : State, s.Inv → s.rxAck.CrcOk → s.rxData.CrcOk → step s = .next t → t.rxAck.CrcOk ∧ t.rxData.CrcOk

/-- Derived from R31, R150: there is one transition, from Unsynchronized to Synchronized; no step goes back, and a step
that makes it is a `TASK` or a `SYNCBURST` that first put five SYNC bytes on the wire. -/
def Obligations.SynchronizedOnceAndForAll : Prop :=
  ∀ s t : State, step s = .next t →
    (s.syncSent = true → t.syncSent = true) ∧
    (s.syncSent = false → t.syncSent = true →
      (∃ rest, t.link.tx = s.link.tx ++ [0x2C, 0x2C, 0x2C, 0x2C, 0x2C] ++ rest) ∧
      ∃ r, s.requests.head? = some r ∧ (decode r = .ok .task ∨ decode r = .ok .syncburst))

/-- Derived from R55, R72, R148: what has gone out stays: a step only appends to the outbound stream, to the answers and
to the deliveries. -/
def Obligations.OutputsOnlyGrow : Prop :=
  ∀ s t : State, step s = .next t →
    (∃ a, t.answers = s.answers ++ a) ∧ (∃ d, t.delivered = s.delivered ++ d) ∧ (∃ b, t.link.tx = s.link.tx ++ b)

/-- Derived from R148, R166, R167: no instruction delivers but the end of a data frame and what classifies inbound bytes;
and no other takes a nested command. -/
def Obligations.OnlyInboundDataDelivers : Prop :=
  ∀ (i : Instr) (s t : State), mayDeliver i = false → exec i s = .next t →
    t.delivered = s.delivered ∧ t.nested = s.nested

/-- Derived from R53, R134: an in-flight frame stays in the window, with its bytes unchanged, under every instruction that
neither resets the scheduler nor acknowledges a frame, a retransmission among them. -/
def Obligations.InFlightFramesStay : Prop :=
  ∀ (i : Instr) (s t : State), mayTouchFrames i = false → exec i s = .next t →
    s.win.len ≤ t.win.len ∧ ∀ j : Fin 3, j.val < s.win.len → t.win.slots[j].frame = s.win.slots[j].frame

/-! ## CRC and classifiers -/

/-- Derived from R80 and the spec's decision D4 (the generator): `CRC32.STEP`: the byte into the register's top byte, eight shifts with the generator; the value over
"123456789". -/
def Obligations.CrcStepFollowsTheGenerator : Prop :=
  (∀ (c : Word) (b : Byte) (s : State), exec (.crc32Step c b) s =
    .next { s with answers := s.answers ++ [⟨.ok, .num
      (Nat.iterate (fun c => if c.getLsbD 31 then (c <<< 1) ^^^ 0x04C11DB7#32 else c <<< 1) 8
        (c ^^^ (b.setWidth 32 <<< 24)))⟩] }) ∧
  crcOver 0xFFFFFFFF [] = 0xFFFFFFFF ∧ crcStep 0 0 = 0 ∧
  crcOver 0xFFFFFFFF [0x31, 0x32, 0x33, 0x34, 0x35, 0x36, 0x37, 0x38, 0x39] = 0x0376E6E7

/-- Derived, as the spec marks R81: the residue law. Each of four steps over the register's own bytes, most significant first, shifts a zero byte in,
and the register after a message and its own value is zero. -/
def Obligations.CrcResidueIsZero : Prop :=
  (∀ c : Word, crcStep c (c.extractLsb' 24 8) = c <<< 8) ∧
  ∀ m : List Byte, crcOver 0xFFFFFFFF (m ++ wordBytes (crcOver 0xFFFFFFFF m)) = 0

/-- Derived from R98 to R102 and log 13 (a classifier's false is answered with the status OK): the five classifiers, each true on exactly its values, with no effect on any state. -/
def Obligations.ClassifiersAnswerTheirRanges : Prop :=
  ∀ (b : Byte) (s : State),
    exec (.isSync b) s = .next { s with answers := s.answers ++ [⟨.ok, .bool (b.toNat == 0x2C)⟩] } ∧
    exec (.isEoa b) s = .next { s with answers := s.answers ++ [⟨.ok, .bool (b.toNat == 0x01)⟩] } ∧
    exec (.isEod b) s = .next { s with answers := s.answers ++ [⟨.ok, .bool (b.toNat == 0x02)⟩] } ∧
    exec (.isAck b) s =
      .next { s with answers := s.answers ++ [⟨.ok, .bool (decide (0x40 ≤ b.toNat ∧ b.toNat ≤ 0x7F))⟩] } ∧
    exec (.isData b) s = .next { s with answers := s.answers ++ [⟨.ok, .bool (decide (0x80 ≤ b.toNat))⟩] }

/-- Derived from R98 to R102, as the spec marks the second half of R106: for every byte at most one of the five classifiers is true; none is for the 61 values of R66. -/
def Obligations.WireClassesAreDisjoint : Prop :=
  (∀ b : Byte, ([isSyncByte b, isAckByte b, isEoaByte b, isDataByte b, isEodByte b].count true) ≤ 1) ∧
  (∀ b : Byte, ([isSyncByte b, isAckByte b, isEoaByte b, isDataByte b, isEodByte b].count true) = 0 ↔
    (b.toNat = 0 ∨ (0x03 ≤ b.toNat ∧ b.toNat ≤ 0x2B) ∨ (0x2D ≤ b.toNat ∧ b.toNat ≤ 0x3F)))

/-! ## Encoders and decoders -/

/-- Derived from R84, R83 and the spec's decision D6 (the test of a full buffer): `ENC_A.PUSH`. Without room for two more bytes: `false`, and nothing changes. With room: the two bytes it writes,
the register, `count` and `step`; the other bytes, the other buffers and all other state stay. -/
def Obligations.EncAPushPacksTheByte : Prop :=
  (∀ (s : State) (e : Fin 3) (b : Byte), 16 < s.ackQ.slots[e].count + 2 →
    exec (.encAPush e b) s = .next { s with answers := s.answers ++ [⟨.fail, .bool false⟩] }) ∧
  ∀ (s : State) (e : Fin 3) (b : Byte), s.ackQ.slots[e].EncOk .ack → s.ackQ.slots[e].count + 2 ≤ 16 →
    ∃ t, exec (.encAPush e b) s = .next t ∧
      t = { s with ackQ := t.ackQ, answers := s.answers ++ [⟨.ok, .bool true⟩] } ∧ t.ackQ.len = s.ackQ.len ∧
      (∀ j : Fin 3, j ≠ e → t.ackQ.slots[j] = s.ackQ.slots[j]) ∧
      (∀ i, i < s.ackQ.slots[e].count → t.ackQ.slots[e].get i = s.ackQ.slots[e].get i) ∧
      t.ackQ.slots[e].get s.ackQ.slots[e].count =
        ((if s.ackQ.slots[e].step = 0 then 0x40#8 else s.ackQ.slots[e].get s.ackQ.slots[e].count) |||
          BitVec.ofNat 8 (b.toNat / 2 ^ (2 * s.ackQ.slots[e].step + 2))) ∧
      t.ackQ.slots[e].get (s.ackQ.slots[e].count + 1) =
        (0x40#8 ||| BitVec.ofNat 8 (b.toNat * 2 ^ (4 - 2 * s.ackQ.slots[e].step) % 64)) ∧
      t.ackQ.slots[e].crc = crcStep s.ackQ.slots[e].crc b ∧
      (s.ackQ.slots[e].step = 2 → t.ackQ.slots[e].count = s.ackQ.slots[e].count + 2 ∧ t.ackQ.slots[e].step = 0) ∧
      (s.ackQ.slots[e].step ≠ 2 →
        t.ackQ.slots[e].count = s.ackQ.slots[e].count + 1 ∧ t.ackQ.slots[e].step = s.ackQ.slots[e].step + 1)

/-- Derived from R85, R83 and the spec's decisions D6 (the test of a full buffer), D7 (the capacity): `ENC_D.PUSH`. Without room for two more bytes: `false`, and nothing changes. With room: as for an ACK buffer, with
the DATA packing; the entry's deadline and duration, and all other state, stay. -/
def Obligations.EncDPushPacksTheByte : Prop :=
  (∀ (s : State) (e : Fin 3) (b : Byte), 352 < s.win.slots[e].frame.count + 2 →
    exec (.encDPush e b) s = .next { s with answers := s.answers ++ [⟨.fail, .bool false⟩] }) ∧
  ∀ (s : State) (e : Fin 3) (b : Byte) (E : CodecBuf), s.win.slots[e].frame = E → E.EncOk .data → E.count + 2 ≤ 352 →
    ∃ t F, exec (.encDPush e b) s = .next t ∧
      t = { s with win := t.win, answers := s.answers ++ [⟨.ok, .bool true⟩] } ∧ t.win.len = s.win.len ∧
      (∀ j : Fin 3, j ≠ e → t.win.slots[j] = s.win.slots[j]) ∧ t.win.slots[e] = { s.win.slots[e] with frame := F } ∧
      (∀ i, i < E.count → F.get i = E.get i) ∧
      F.get E.count =
        ((if E.step = 0 then 0x80#8 else E.get E.count) ||| BitVec.ofNat 8 (b.toNat / 2 ^ (E.step + 1))) ∧
      F.get (E.count + 1) = (0x80#8 ||| BitVec.ofNat 8 (b.toNat * 2 ^ (6 - E.step) % 128)) ∧
      F.crc = crcStep E.crc b ∧
      (E.step = 6 → F.count = E.count + 2 ∧ F.step = 0) ∧
      (E.step ≠ 6 → F.count = E.count + 1 ∧ F.step = E.step + 1)

/-- Derived from R86, R87 and the spec's decision D9 (the result): `PUSH32` is the four byte pushes in sequence, most significant byte first, with no roll-back; its result is
the conjunction of theirs. -/
def Obligations.Push32IsFourPushes : Prop :=
  ∀ (s : State) (e : Fin 3) (v : Word),
    (∃ t t1 t2 t3 t4 o1 o2 o3 o4,
      exec (.encAPush e (v.extractLsb' 24 8)) s = .next (State.outcome t1 o1) ∧
      exec (.encAPush e (v.extractLsb' 16 8)) t1 = .next (State.outcome t2 o2) ∧
      exec (.encAPush e (v.extractLsb' 8 8)) t2 = .next (State.outcome t3 o3) ∧
      exec (.encAPush e (v.extractLsb' 0 8)) t3 = .next (State.outcome t4 o4) ∧
      t = State.outcome t4 (o1 && o2 && o3 && o4) ∧ exec (.encAPush32 e v) s = .next t) ∧
    (∃ t t1 t2 t3 t4 o1 o2 o3 o4,
      exec (.encDPush e (v.extractLsb' 24 8)) s = .next (State.outcome t1 o1) ∧
      exec (.encDPush e (v.extractLsb' 16 8)) t1 = .next (State.outcome t2 o2) ∧
      exec (.encDPush e (v.extractLsb' 8 8)) t2 = .next (State.outcome t3 o3) ∧
      exec (.encDPush e (v.extractLsb' 0 8)) t3 = .next (State.outcome t4 o4) ∧
      t = State.outcome t4 (o1 && o2 && o3 && o4) ∧ exec (.encDPush32 e v) s = .next t)

/-- Derived from R96, R97, the spec's decisions D6 (the room it needs), D7 (the capacity) and log 17 (an `END` or a push after
an `END` runs as written): `END` with room: the partly filled byte counts as complete, the terminator follows, the register stays;
without room `false` and no effect. -/
def Obligations.EndAppendsTheTerminator : Prop :=
  ∀ (s : State) (e : Fin 3),
    (s.ackQ.slots[e].EncOk .ack →
      ∃ t n, n = s.ackQ.slots[e].count + (if s.ackQ.slots[e].step = 0 then 0 else 1) ∧
        exec (.encAEnd e) s = .next t ∧
        (n + 1 ≤ 16 → t = { s with ackQ := t.ackQ, answers := s.answers ++ [⟨.ok, .bool true⟩] } ∧
          t.ackQ.len = s.ackQ.len ∧ (∀ j : Fin 3, j ≠ e → t.ackQ.slots[j] = s.ackQ.slots[j]) ∧
          t.ackQ.slots[e] = ⟨s.ackQ.slots[e].bytes ++ [0x01], n + 1, 0, s.ackQ.slots[e].crc⟩) ∧
        (16 < n + 1 → t = { s with answers := s.answers ++ [⟨.fail, .bool false⟩] })) ∧
    (s.win.slots[e].frame.EncOk .data →
      ∃ t n, n = s.win.slots[e].frame.count + (if s.win.slots[e].frame.step = 0 then 0 else 1) ∧
        exec (.encDEnd e) s = .next t ∧
        (n + 1 ≤ 352 → t = { s with win := t.win, answers := s.answers ++ [⟨.ok, .bool true⟩] } ∧
          t.win.len = s.win.len ∧ (∀ j : Fin 3, j ≠ e → t.win.slots[j] = s.win.slots[j]) ∧
          t.win.slots[e] = { s.win.slots[e] with
            frame := ⟨s.win.slots[e].frame.bytes ++ [0x02], n + 1, 0, s.win.slots[e].frame.crc⟩ }) ∧
        (352 < n + 1 → t = { s with answers := s.answers ++ [⟨.fail, .bool false⟩] }))

/-- R88, R89, R92, R93: a flush sets `count` 0, `step` 0, `crc` all ones in the buffer it names, and nothing else. -/
def Obligations.FlushEmptiesTheBuffer : Prop :=
  ∀ (s : State) (e : Fin 3),
    (∃ t, exec (.encAFlush e) s = .next t ∧ t = { s with ackQ := t.ackQ, answers := s.answers ++ [⟨.ok, .none⟩] } ∧
      t.ackQ.len = s.ackQ.len ∧ (∀ j : Fin 3, j ≠ e → t.ackQ.slots[j] = s.ackQ.slots[j]) ∧
      t.ackQ.slots[e].count = 0 ∧ t.ackQ.slots[e].step = 0 ∧ t.ackQ.slots[e].crc = 0xFFFFFFFF) ∧
    (∃ t, exec (.encDFlush e) s = .next t ∧ t = { s with win := t.win, answers := s.answers ++ [⟨.ok, .none⟩] } ∧
      t.win.len = s.win.len ∧ (∀ j : Fin 3, j ≠ e → t.win.slots[j] = s.win.slots[j]) ∧
      t.win.slots[e] = { s.win.slots[e] with frame := t.win.slots[e].frame } ∧
      t.win.slots[e].frame.count = 0 ∧ t.win.slots[e].frame.step = 0 ∧ t.win.slots[e].frame.crc = 0xFFFFFFFF) ∧
    (∃ t, exec .decAFlush s = .next t ∧ t = { s with rxAck := t.rxAck, answers := s.answers ++ [⟨.ok, .none⟩] } ∧
      t.rxAck.count = 0 ∧ t.rxAck.step = 0 ∧ t.rxAck.crc = 0xFFFFFFFF) ∧
    (∃ t, exec .decDFlush s = .next t ∧ t = { s with rxData := t.rxData, answers := s.answers ++ [⟨.ok, .none⟩] } ∧
      t.rxData.count = 0 ∧ t.rxData.step = 0 ∧ t.rxData.crc = 0xFFFFFFFF)

/-- Derived from R90, R83 and the spec's decisions D6 (the test of a full buffer) and D11 (the tag is not checked):
`DEC_A.PUSH` without room, and with room at the first position of a super-group and at the others. -/
def Obligations.DecAPushUnpacksTheByte : Prop :=
  (∀ (s : State) (b : Byte), 16 < s.rxAck.count + 2 →
    exec (.decAPush b) s = .next { s with answers := s.answers ++ [⟨.fail, .bool false⟩] }) ∧
  ∀ (s : State) (b : Byte) (D : CodecBuf), s.rxAck = D → D.DecOk .ack → D.count + 2 ≤ 16 →
    ∃ t, exec (.decAPush b) s = .next t ∧
      t = { s with rxAck := t.rxAck, answers := s.answers ++ [⟨.ok, .bool true⟩] } ∧
      (∀ i, i < D.count → t.rxAck.get i = D.get i) ∧
      (D.step = 0 → t.rxAck.get D.count = BitVec.ofNat 8 (b.toNat % 64 * 4) ∧ t.rxAck.step = 1 ∧
        t.rxAck.count = D.count ∧ t.rxAck.crc = D.crc) ∧
      (D.step ≠ 0 →
        t.rxAck.get D.count = (D.get D.count ||| BitVec.ofNat 8 (b.toNat % 64 / 2 ^ (6 - 2 * D.step))) ∧
        t.rxAck.crc = crcStep D.crc (t.rxAck.get D.count) ∧ t.rxAck.count = D.count + 1 ∧
        (D.step < 3 → t.rxAck.get (D.count + 1) = BitVec.ofNat 8 (b.toNat % 64 * 2 ^ (2 * D.step + 2)) ∧
          t.rxAck.step = D.step + 1) ∧
        (D.step = 3 → t.rxAck.step = 0))

/-- Derived from R91, R83 and the spec's decisions D6, D7 and D11: `DEC_D.PUSH` without room and with room. -/
def Obligations.DecDPushUnpacksTheByte : Prop :=
  (∀ (s : State) (b : Byte), 352 < s.rxData.count + 2 →
    exec (.decDPush b) s = .next { s with answers := s.answers ++ [⟨.fail, .bool false⟩] }) ∧
  ∀ (s : State) (b : Byte) (D : CodecBuf), s.rxData = D → D.DecOk .data → D.count + 2 ≤ 352 →
    ∃ t, exec (.decDPush b) s = .next t ∧
      t = { s with rxData := t.rxData, answers := s.answers ++ [⟨.ok, .bool true⟩] } ∧
      (∀ i, i < D.count → t.rxData.get i = D.get i) ∧
      (D.step = 0 → t.rxData.get D.count = BitVec.ofNat 8 (b.toNat % 128 * 2) ∧ t.rxData.step = 1 ∧
        t.rxData.count = D.count ∧ t.rxData.crc = D.crc) ∧
      (D.step ≠ 0 →
        t.rxData.get D.count = (D.get D.count ||| BitVec.ofNat 8 (b.toNat % 128 / 2 ^ (7 - D.step))) ∧
        t.rxData.crc = crcStep D.crc (t.rxData.get D.count) ∧ t.rxData.count = D.count + 1 ∧
        (D.step < 7 → t.rxData.get (D.count + 1) = BitVec.ofNat 8 (b.toNat % 128 * 2 ^ (D.step + 1)) ∧
          t.rxData.step = D.step + 1) ∧
        (D.step = 7 → t.rxData.step = 0))

/-- Derived from R94, R95 and the spec's decision D10 (the refusal; how many original bytes a string of encoded bytes
holds is log 12): the random-access decode of an encoded frame, payload bytes and a terminator: the value below the frame's
original byte count, refused at and above it; no state but the answer. -/
def Obligations.RandomAccessDecodeResult : Prop :=
  (∀ (s : State) (p : List Byte) (x : Byte) (n : BitVec 16), (∀ b ∈ p, isAckByte b = true) → isAckByte x = false →
    (n.toNat < p.length * 3 / 4 → ∃ i a b, i = 4 * (n.toNat / 3) + n.toNat % 3 ∧ p[i]? = some a ∧ p[i + 1]? = some b ∧
      exec (.decodeA (p ++ [x]) n) s = .next { s with answers := s.answers ++ [⟨.ok, .num (BitVec.ofNat 32
        ((a.toNat % 64 * 2 ^ (2 * (n.toNat % 3) + 2) ||| b.toNat % 64 / 2 ^ (4 - 2 * (n.toNat % 3))) % 256))⟩] }) ∧
    (p.length * 3 / 4 ≤ n.toNat →
      exec (.decodeA (p ++ [x]) n) s = .next { s with answers := s.answers ++ [⟨.refused, .none⟩] })) ∧
  (∀ (s : State) (p : List Byte) (x : Byte) (n : BitVec 16), (∀ b ∈ p, isDataByte b = true) → isDataByte x = false →
    (n.toNat < p.length * 7 / 8 → ∃ i a b, i = 8 * (n.toNat / 7) + n.toNat % 7 ∧ p[i]? = some a ∧ p[i + 1]? = some b ∧
      exec (.decodeD (p ++ [x]) n) s = .next { s with answers := s.answers ++ [⟨.ok, .num (BitVec.ofNat 32
        ((a.toNat % 128 * 2 ^ (n.toNat % 7 + 1) ||| b.toNat % 128 / 2 ^ (6 - n.toNat % 7)) % 256))⟩] }) ∧
    (p.length * 7 / 8 ≤ n.toNat →
      exec (.decodeD (p ++ [x]) n) s = .next { s with answers := s.answers ++ [⟨.refused, .none⟩] }))

/-- Derived from R94, R95, R44: random access agrees with the encoders: out of an encoded message of any length that fits,
`DECODE_A` and `DECODE_D` read every original byte back. -/
def Obligations.RandomAccessAgreesWithEncoder : Prop :=
  ∀ (s : State) (m : List Byte) (n : Nat) (x : Byte), m[n]? = some x →
    (m.length ≤ 11 → exec (.decodeA ((CodecBuf.empty.encPushAll .ack m).encEnd .ack).complete (BitVec.ofNat 16 n)) s =
      .next { s with answers := s.answers ++ [⟨.ok, .num (x.setWidth 32)⟩] }) ∧
    (m.length ≤ 307 →
      exec (.decodeD ((CodecBuf.empty.encPushAll .data m).encEnd .data).complete (BitVec.ofNat 16 n)) s =
        .next { s with answers := s.answers ++ [⟨.ok, .num (x.setWidth 32)⟩] })

/-- Headline, derived as the spec marks R104 (with `DATA_CAP` by its decision D7): the round-trip laws. DATA: for any byte sequence of length 0..300, encoded with its CRC and decoded, the decoder
holds the sequence and its CRC and its register is zero. ACK: the same for a sequence byte. -/
def Obligations.EncodedFramesDecode : Prop :=
  (∀ m : List Byte, m.length ≤ 300 → ∃ E D : CodecBuf,
    E = ((CodecBuf.empty.encPushAll .data m).encPush32 .data (CodecBuf.empty.encPushAll .data m).crc).encEnd .data ∧
    E.complete.getLast? = some 0x02 ∧ D = decoded .data E.complete.dropLast ∧
    D.count = m.length + 4 ∧ D.bytes.take m.length = m ∧ D.crc = 0) ∧
  (∀ seq : Byte, (builtAck seq).complete.getLast? = some 0x01 ∧
    (decoded .ack (builtAck seq).complete.dropLast).count = 5 ∧
    (decoded .ack (builtAck seq).complete.dropLast).get 0 = seq ∧
    (decoded .ack (builtAck seq).complete.dropLast).crc = 0)

/-- Derived, as the spec marks R103 (with the capacities of R6 and D7): the length law, with its exact bounds. -/
def Obligations.EncodedLengths : Prop :=
  (∀ m : List Byte,
    (CodecBuf.empty.encAccepts .data m = true ↔ m.length ≤ 308) ∧
    ((CodecBuf.empty.encAccepts .data m && (CodecBuf.empty.encPushAll .data m).hasEndRoom .data) = true ↔
      m.length ≤ 307) ∧
    (m.length ≤ 307 → ((CodecBuf.empty.encPushAll .data m).encEnd .data).count = (8 * m.length + 6) / 7 + 1) ∧
    (CodecBuf.empty.encAccepts .ack m = true ↔ m.length ≤ 12) ∧
    ((CodecBuf.empty.encAccepts .ack m && (CodecBuf.empty.encPushAll .ack m).hasEndRoom .ack) = true ↔ m.length ≤ 11) ∧
    (m.length ≤ 11 → ((CodecBuf.empty.encPushAll .ack m).encEnd .ack).count = (4 * m.length + 2) / 3 + 1)) ∧
  (∀ seq : Byte, (builtAck seq).count = 8) ∧
  (∀ (seq ch : Byte) (p : List Byte), p.length ≤ 256 → (builtData seq ch p).count = (8 * (p.length + 6) + 6) / 7 + 1)

/-- Derived, as the spec marks R105: the alphabet law: every byte an encoder writes before the terminator is in its payload class, so it is neither
SYNC nor a terminator. -/
def Obligations.EncodedBytesStayInTheirAlphabet : Prop :=
  ∀ m : List Byte,
    (∀ b ∈ (CodecBuf.empty.encPushAll .ack m).bytes, 0x40 ≤ b.toNat ∧ b.toNat ≤ 0x7F) ∧
    (∀ b ∈ (CodecBuf.empty.encPushAll .data m).bytes, 0x80 ≤ b.toNat)

/-! ## Channels -/

/-- Derived from R135 and the spec's decision D23 (the fresh channel): `OPEN`. -/
def Obligations.OpenRegistersAFreshChannel : Prop :=
  ∀ (id : Byte) (s : State),
    ((7 < id.toNat ∨ s.channel id.toNat ≠ none) →
      exec (.openSlot id) s = .next { s with answers := s.answers ++ [⟨.fail, .none⟩] }) ∧
    (id.toNat ≤ 7 → s.channel id.toNat = none →
      ∃ t, exec (.openSlot id) s = .next t ∧ t = { s with chan := t.chan, answers := s.answers ++ [⟨.ok, .none⟩] } ∧
        t.channel id.toNat = some ⟨[], false, none⟩ ∧ ∀ j, j ≠ id.toNat → t.channel j = s.channel j)

/-- Derived from R136 and the spec's decisions D25, D26: `CLOSE`; the window and the ACK queue, like all state but the slot, stay (D26). -/
def Obligations.CloseDestroysTheChannel : Prop :=
  ∀ s : State,
    exec (.closeSlot none) s = .next { s with answers := s.answers ++ [⟨.ok, .none⟩] } ∧
    ∀ id : Byte,
      (s.channel id.toNat = none →
        exec (.closeSlot (some id)) s = .next { s with answers := s.answers ++ [⟨.refused, .none⟩] }) ∧
      (s.channel id.toNat ≠ none →
        ∃ t, exec (.closeSlot (some id)) s = .next t ∧
          t = { s with chan := t.chan, answers := s.answers ++ [⟨.ok, .none⟩] } ∧
          t.channel id.toNat = none ∧ ∀ j, j ≠ id.toNat → t.channel j = s.channel j)

/-- Derived from R115, the spec's decision D25: a channel command on a closed slot, or on an `id` above 7, is refused with no state change. -/
def Obligations.ClosedSlotCommandsRefused : Prop :=
  ∀ (s : State) (id : Byte) (i : Instr), (7 < id.toNat ∨ s.channel id.toNat = none) →
    ((∃ len more data, i = .send id len more data) ∨ (∃ rx, i = .setrx id rx) ∨ i = .txsize id ∨ i = .txspace id ∨
      i = .txflush id) →
    exec i s = .next { s with answers := s.answers ++ [⟨.refused, .none⟩] }

/-- Derived from R110 and the spec's decision D23 (`more` is always recorded): `SEND` queues the first `min(len, space)` bytes behind those queued, records `more`, and answers the count. -/
def Obligations.SendQueuesWhatFits : Prop :=
  ∀ (s : State) (id : Byte) (len : BitVec 16) (more : Bool) (data : List Byte) (c : Channel),
    s.channel id.toNat = some c → data.length = len.toNat →
    ∃ t n, n = min len.toNat (1024 - c.q.length) ∧ exec (.send id len more data) s = .next t ∧
      t = { s with chan := t.chan, answers := s.answers ++ [⟨.ok, .num (BitVec.ofNat 32 n)⟩] } ∧
      t.channel id.toNat = some { c with q := c.q ++ data.take n, more := more } ∧
      ∀ j, j ≠ id.toNat → t.channel j = s.channel j

/-- R111: `SETRX` replaces the receiver by the one its tags name, or, with a null callback and whatever the tags, by none;
nothing else changes. -/
def Obligations.SetrxReplacesTheReceiver : Prop :=
  ∀ (s : State) (id : Byte) (c : Channel) (op : RxOperand), s.channel id.toNat = some c →
    ∃ t, exec (.setrx id op) s = .next t ∧ t = { s with chan := t.chan, answers := s.answers ++ [⟨.ok, .none⟩] } ∧
      (∀ rx, op = .tags true rx → t.channel id.toNat = some { c with rx := some rx }) ∧
      (∀ rx, op = .none ∨ op = .tags false rx → t.channel id.toNat = some { c with rx := none }) ∧
      ∀ j, j ≠ id.toNat → t.channel j = s.channel j

/-- Derived from R114 and the spec's decision D23 (`more` stays): `TXFLUSH` empties the queue; nothing else changes. -/
def Obligations.TxflushEmptiesTheQueue : Prop :=
  ∀ (s : State) (id : Byte) (c : Channel), s.channel id.toNat = some c →
    ∃ t, exec (.txflush id) s = .next t ∧ t = { s with chan := t.chan, answers := s.answers ++ [⟨.ok, .none⟩] } ∧
      t.channel id.toNat = some { c with q := [] } ∧ ∀ j, j ≠ id.toNat → t.channel j = s.channel j

/-- R112, and what R129 says of the command itself: `TXSIZE` answers 1024 and `GETNACK` the nack counter; neither changes anything. -/
def Obligations.TxsizeAndGetnackResults : Prop :=
  (∀ (s : State) (id : Byte), s.channel id.toNat ≠ none →
    exec (.txsize id) s = .next { s with answers := s.answers ++ [⟨.ok, .num 1024⟩] }) ∧
  (∀ s : State, exec .getnack s = .next { s with answers := s.answers ++ [⟨.ok, .num s.nackCount⟩] })

/-- R116, with R113's answer: `TXSPACE` answers the room left and changes nothing; after a `SEND` it has gone down by exactly the number
of bytes the `SEND` answered, which is 0 on a full queue. -/
def Obligations.TxspaceFallsByWhatSendAccepts : Prop :=
  (∀ (s : State) (id : Byte) (c : Channel), s.channel id.toNat = some c →
    exec (.txspace id) s = .next { s with answers := s.answers ++ [⟨.ok, .num (BitVec.ofNat 32 (1024 - c.q.length))⟩] }) ∧
  (∀ (s : State) (id : Byte) (len : BitVec 16) (more : Bool) (data : List Byte) (c : Channel),
    s.channel id.toNat = some c → c.q.length ≤ 1024 → data.length = len.toNat →
    ∃ t u n, exec (.send id len more data) s = .next t ∧ t.answers = s.answers ++ [⟨.ok, .num (BitVec.ofNat 32 n)⟩] ∧
      exec (.txspace id) t = .next u ∧
      u.answers = t.answers ++ [⟨.ok, .num (BitVec.ofNat 32 (1024 - c.q.length - n))⟩] ∧ n ≤ 1024 - c.q.length ∧
      (c.q.length = 1024 → n = 0))

/-! ## The scheduler -/

/-- R121: while an ACK frame is queued, `GETNEXT` removes and returns the oldest, and looks at nothing else. -/
def Obligations.GetnextSendsTheOldestAck : Prop :=
  ∀ (s : State) (now : Time), 0 < s.ackQ.len →
    ∃ t, exec (.getnext now) s = .next t ∧
      t = { s with ackQ := t.ackQ,
                   answers := s.answers ++ [⟨.ok, .frame ⟨.ack, s.ackQ.slots[0].complete⟩⟩] } ∧
      t.ackQ.len = s.ackQ.len - 1 ∧ t.ackQ.slots[0] = s.ackQ.slots[1] ∧ t.ackQ.slots[1] = s.ackQ.slots[2]

/-- Derived from R122 and the spec's decisions D12 (the comparison), D14: with no ACK queued and the oldest deadline reached, `GETNEXT` returns the oldest frame unmodified, re-arms its
deadline and counts a retransmission. -/
def Obligations.GetnextRetransmitsTheOldest : Prop :=
  ∀ (s : State) (now : Time), s.ackQ.len = 0 → 0 < s.win.len →
    (now - s.win.slots[0].deadline).toNat < 2 ^ 31 →
    ∃ t, exec (.getnext now) s = .next t ∧
      t = { s with win := t.win, nackCount := s.nackCount + 1,
                   answers := s.answers ++ [⟨.ok, .frame ⟨.data, s.win.slots[0].frame.complete⟩⟩] } ∧
      t.win.len = s.win.len ∧ t.win.slots[1] = s.win.slots[1] ∧ t.win.slots[2] = s.win.slots[2] ∧
      t.win.slots[0] = { s.win.slots[0] with deadline := now + BitVec.ofNat 32 Config.tRetx }

/-- Derived from R123, R125 and the spec's decisions D13 (the deadline's shape), D31: with nothing more urgent and a free window slot, `GETNEXT` frames the lowest ready channel: up to 256 of
its bytes, numbered `nextSeq`, as the youngest entry, with its deadline. -/
def Obligations.GetnextFramesTheLowestReadyChannel : Prop :=
  ∀ (s : State) (now : Time) (id : Nat) (c : Channel) (dur : Time), s.ackQ.len = 0 → s.win.len < 3 →
    ¬ (0 < s.win.len ∧ (now - s.win.slots[0].deadline).toNat < 2 ^ 31) →
    s.channel id = some c → readyToSend c → (∀ j d, j < id → s.channel j = some d → ¬ readyToSend d) →
    dur = BitVec.ofNat 32
      (Config.tBase + min 256 c.q.length * Config.tPerByteNum / Config.tPerByteDen) →
    ∃ t, exec (.getnext now) s = .next t ∧
      t = { s with chan := t.chan, win := t.win, nextSeq := s.nextSeq + 1,
                   answers := s.answers ++ [⟨.ok, .frame
                     ⟨.data, (builtData s.nextSeq (BitVec.ofNat 8 id) (c.q.take 256)).complete⟩⟩] } ∧
      t.channel id = some { c with q := c.q.drop 256 } ∧ (∀ j, j ≠ id → t.channel j = s.channel j) ∧
      t.win.len = s.win.len + 1 ∧ (∀ j : Fin 3, j.val ≠ s.win.len → t.win.slots[j] = s.win.slots[j]) ∧
      ∀ j : Fin 3, j.val = s.win.len →
        t.win.slots[j] = ⟨builtData s.nextSeq (BitVec.ofNat 8 id) (c.q.take 256), now + dur, dur⟩

/-- Derived from R120, R124 and the spec's decision D12 (the comparison): with no ACK queued and no deadline reached, and either no channel ready or the window full, `GETNEXT`
answers none and changes nothing. -/
def Obligations.GetnextNothingReady : Prop :=
  ∀ (s : State) (now : Time), s.ackQ.len = 0 →
    ¬ (0 < s.win.len ∧ (now - s.win.slots[0].deadline).toNat < 2 ^ 31) →
    (3 ≤ s.win.len ∨ ∀ id c, s.channel id = some c → ¬ readyToSend c) →
    exec (.getnext now) s = .next { s with answers := s.answers ++ [⟨.fail, .none⟩] }

/-- Derived from R132, R120 to R125: the priority law: with one ACK queued, one timed-out frame in flight and a channel ready, three calls
at the same time return the ACK frame, the same data frame again, and a new data frame. R132's proviso for the third call
is that the re-armed deadline is not reached at once; `T_RETX` being open, the statement says what comes otherwise too: the
same data frame once more. -/
def Obligations.PriorityLaw : Prop :=
  ∀ (s : State) (now : Time) (id : Nat) (c : Channel), s.ackQ.len = 1 → s.win.len = 1 →
    timedOut now s.win.slots[0].deadline = true →
    s.channel id = some c → readyToSend c → (∀ j d, j < id → s.channel j = some d → ¬ readyToSend d) →
    ∃ t1 t2 t3 third, exec (.getnext now) s = .next t1 ∧ exec (.getnext now) t1 = .next t2 ∧
      exec (.getnext now) t2 = .next t3 ∧
      t3.answers = s.answers ++
        [⟨.ok, .frame ⟨.ack, s.ackQ.slots[0].complete⟩⟩, ⟨.ok, .frame ⟨.data, s.win.slots[0].frame.complete⟩⟩,
         ⟨.ok, .frame ⟨.data, third⟩⟩] ∧
      t3.ackQ.len = 0 ∧ t3.win.slots[0].frame = s.win.slots[0].frame ∧
      (timedOut now (now + BitVec.ofNat 32 Config.tRetx) = false →
        third = (builtData s.nextSeq (BitVec.ofNat 8 id) (c.q.take 256)).complete ∧ t3.win.len = 2) ∧
      (timedOut now (now + BitVec.ofNat 32 Config.tRetx) = true →
        third = s.win.slots[0].frame.complete ∧ t3.win.len = 1)

/-- Derived from R126: `ACKX` compares the number with the one inside the oldest in-flight frame, read out of its first two
bytes: a match removes that frame and clears the nack counter; a mismatch, and an empty window, has no effect. In a built
frame that number is the frame's own; that the two bytes are read so in a frame that holds no original byte 0 is the model's
choice (log 19). -/
def Obligations.AckxRemovesOnlyTheOldest : Prop :=
  (∀ (s : State) (seq : Byte), s.win.len = 0 →
    exec (.ackx seq) s = .next { s with answers := s.answers ++ [⟨.fail, .bool false⟩] }) ∧
  (∀ (s : State) (seq q x y : Byte) (rest : List Byte), 0 < s.win.len → s.win.slots[0].frame.bytes = x :: y :: rest →
    q = BitVec.ofNat 8 (x.toNat % 128 * 2 + y.toNat % 128 / 64) →
    (seq ≠ q → exec (.ackx seq) s = .next { s with answers := s.answers ++ [⟨.fail, .bool false⟩] }) ∧
    (seq = q → ∃ t, exec (.ackx seq) s = .next t ∧
      t = { s with win := t.win, nackCount := 0, answers := s.answers ++ [⟨.ok, .bool true⟩] } ∧
      t.win.len = s.win.len - 1 ∧ t.win.slots[0] = s.win.slots[1] ∧ t.win.slots[1] = s.win.slots[2] ∧
      t.win.slots[2].frame = CodecBuf.empty)) ∧
  ∀ (q ch : Byte) (p : List Byte), ∃ x y rest, (builtData q ch p).bytes = x :: y :: rest ∧
    q = BitVec.ofNat 8 (x.toNat % 128 * 2 + y.toNat % 128 / 64)

/-- R127: `SCHEDACK` queues the number's ACK frame as the youngest entry; with three queued it has no effect. -/
def Obligations.SchedackQueuesTheAckFrame : Prop :=
  ∀ (s : State) (seq : Byte),
    (s.ackQ.len < 3 → ∃ t, exec (.schedack seq) s = .next t ∧
      t = { s with ackQ := t.ackQ, answers := s.answers ++ [⟨.ok, .bool true⟩] } ∧ t.ackQ.len = s.ackQ.len + 1 ∧
      (∀ j : Fin 3, j.val ≠ s.ackQ.len → t.ackQ.slots[j] = s.ackQ.slots[j]) ∧
      ∀ j : Fin 3, j.val = s.ackQ.len → t.ackQ.slots[j] = builtAck seq) ∧
    (3 ≤ s.ackQ.len → exec (.schedack seq) s = .next { s with answers := s.answers ++ [⟨.fail, .bool false⟩] })

/-- R128, R142: `SRESET` empties both queues and clears the nack counter and the next number; `RESYNC` does this and
flushes both decoders and clears the expected number; the channels and `syncSent` stay. -/
def Obligations.SresetAndResyncResults : Prop :=
  ∀ s : State,
    (∃ t, exec .sreset s = .next t ∧
      t = { s with ackQ := t.ackQ, win := t.win, nackCount := 0, nextSeq := 0,
                   answers := s.answers ++ [⟨.ok, .none⟩] } ∧
      t.ackQ.len = 0 ∧ t.win.len = 0 ∧
      ∀ j : Fin 3, t.ackQ.slots[j] = CodecBuf.empty ∧ t.win.slots[j] = { s.win.slots[j] with frame := CodecBuf.empty }) ∧
    (∃ t, exec .resync s = .next t ∧
      t = { s with ackQ := t.ackQ, win := t.win, nackCount := 0, nextSeq := 0, rxAck := CodecBuf.empty,
                   rxData := CodecBuf.empty, expectedSeq := 0, answers := s.answers ++ [⟨.ok, .none⟩] } ∧
      t.ackQ.len = 0 ∧ t.win.len = 0 ∧
      ∀ j : Fin 3, t.ackQ.slots[j] = CodecBuf.empty ∧ t.win.slots[j] = { s.win.slots[j] with frame := CodecBuf.empty })

/-- Derived from R131, R125, R126: a new frame that is acknowledged at once leaves the window empty and the next number one
higher modulo 256. And on the lowest ready channel, with its queue empty, any number of rounds of queueing a byte, asking
for the frame and acknowledging it can be run; the frames are numbered upward modulo 256, so the 257th carries the number
of the first. -/
def Obligations.AcknowledgedFrameAdvancesTheNumber : Prop :=
  (∀ (s : State) (now : Time) (id : Nat) (c : Channel), s.ackQ.len = 0 → s.win.len = 0 →
    s.channel id = some c → readyToSend c →
    ∃ t u f, exec (.getnext now) s = .next t ∧ t.answers = s.answers ++ [⟨.ok, .frame ⟨.data, f⟩⟩] ∧
      (decoded .data f.dropLast).get 0 = s.nextSeq ∧
      exec (.ackx s.nextSeq) t = .next u ∧ u.answers = t.answers ++ [⟨.ok, .bool true⟩] ∧
      u.win.len = 0 ∧ u.ackQ.len = 0 ∧ u.nextSeq.toNat = (s.nextSeq.toNat + 1) % 256) ∧
  ∀ (s : State) (id : Byte) (c : Channel) (b : Nat → Byte) (now : Nat → Time), s.ackQ.len = 0 → s.win.len = 0 →
    s.channel id.toNat = some c → c.q = [] → (∀ j d, j < id.toNat → s.channel j = some d → ¬ readyToSend d) →
    ∃ (st : Nat → State) (seq : Nat → Byte), st 0 = s ∧
      (∀ k, acknowledgedRound id (b k) (now k) (st k) (st (k + 1)) (seq k)) ∧
      (∀ k, seq k = s.nextSeq + BitVec.ofNat 8 k) ∧ seq 256 = seq 0 ∧ seq 257 = seq 1

/-! ## The engine: inbound bytes -/

/-- Derived from R140 and log 11 (a wire instruction clears the SYNC counter itself): `RXBYTE` does what the inbound byte's class does, and answers. -/
def Obligations.RxbyteRunsTheWireInstruction : Prop :=
  ∀ (b : Byte) (s : State), ∃ t, exec (decodeWire b) s = .next t ∧
    exec (.rxbyte b) s = .next { t with answers := t.answers ++ [⟨.ok, .none⟩] }

/-- R141: `W.SYNC`: the third in a row is a Resync and clears the counter; the first two only count. -/
def Obligations.ThirdSyncResynchronises : Prop :=
  ∀ s : State,
    (s.syncCount.toNat < 2 → exec .wSync s = .next { s with syncCount := s.syncCount + 1 }) ∧
    (2 ≤ s.syncCount.toNat → ∃ t, exec .resync s = .next t ∧
      exec .wSync s = .next { t with syncCount := 0, answers := s.answers })

/-- Derived from R143, R146, R147, R140 and log 11 (the clearing of the SYNC counter): an ACK payload byte goes to `rxAck`, a DATA payload byte to `rxData`, as their decoders' pushes do; a
garbage byte is discarded; each ends a run of SYNC bytes, and changes nothing else. -/
def Obligations.PayloadAndGarbageBytes : Prop :=
  ∀ s : State,
    (∀ a : BitVec 6, ∃ t, exec (.decAPush (0x40#8 ||| a.setWidth 8)) s = .next t ∧
      exec (.wAck a) s = .next { s with syncCount := 0, rxAck := t.rxAck }) ∧
    (∀ d : BitVec 7, ∃ t, exec (.decDPush (0x80#8 ||| d.setWidth 8)) s = .next t ∧
      exec (.wData d) s = .next { s with syncCount := 0, rxData := t.rxData }) ∧
    (∀ g : BitVec 6, exec (.wGarbage g) s = .next { s with syncCount := 0 })

/-- Derived from R144, R140 and log 11 (the clearing of the SYNC counter): `W.EOA`: a frame with zero register and exactly five bytes acknowledges its number; the decoder is flushed
either way. -/
def Obligations.EndOfAckAcknowledges : Prop :=
  ∀ s : State,
    (s.rxAck.crc = 0 ∧ s.rxAck.count = 5 → ∃ t, exec (.ackx (s.rxAck.get 0)) s = .next t ∧
      exec .wEoa s = .next { t with syncCount := 0, rxAck := CodecBuf.empty, answers := s.answers }) ∧
    (s.rxAck.crc ≠ 0 ∨ s.rxAck.count ≠ 5 → exec .wEoa s = .next { s with syncCount := 0, rxAck := CodecBuf.empty })

/-- Derived from R145, R140 and the spec's decisions D21, D22, D27, D33, with log 11 (the clearing of the SYNC counter) and
log 10 (the delivery takes the first list of nested commands): `W.EOD`. A frame that fails the CRC or length test is discarded; a valid one is acknowledged, even a duplicate;
only one in sequence advances the expected number, and its payload goes to the receiver, if there is one. -/
def Obligations.EndOfDataAcknowledgesAndDelivers : Prop :=
  ∀ (s : State) (seq ch : Byte), s.rxData.get 0 = seq → s.rxData.get 1 = ch →
    (s.rxData.crc ≠ 0 ∨ s.rxData.count ≤ 6 →
      exec .wEod s = .next { s with syncCount := 0, rxData := CodecBuf.empty }) ∧
    (s.rxData.crc = 0 → 6 < s.rxData.count → ∃ u, exec (.schedack seq) s = .next u ∧
      (seq ≠ s.expectedSeq →
        exec .wEod s = .next { s with syncCount := 0, rxData := CodecBuf.empty, ackQ := u.ackQ }) ∧
      (seq = s.expectedSeq →
        (7 < ch.toNat ∨ s.channel ch.toNat = none ∨ (∃ c, s.channel ch.toNat = some c ∧ c.rx = none)) →
        exec .wEod s = .next { s with syncCount := 0, rxData := CodecBuf.empty, ackQ := u.ackQ,
                                      expectedSeq := s.expectedSeq + 1 }) ∧
      (∀ c rx, seq = s.expectedSeq → s.channel ch.toNat = some c → c.rx = some rx →
        ∃ t p, exec .wEod s = .next t ∧ t.delivered = s.delivered ++ [⟨ch, rx, p⟩] ∧
          (∀ j, j < s.rxData.count - 6 → p[j]? = s.rxData.bytes[j + 2]?) ∧ p.length ≤ s.rxData.count - 6 ∧
          t = { s with syncCount := 0, rxData := CodecBuf.empty, ackQ := u.ackQ, expectedSeq := s.expectedSeq + 1,
                       chan := t.chan, answers := t.answers, nested := s.nested.tail, delivered := t.delivered } ∧
          (s.nested = [] → t.chan = s.chan ∧ t.answers = s.answers)))

/-- Derived from R52, R165, R166: the commands nested in a delivery run in order, when the ACK is queued and before the
expected number advances; one of the six that R52 allows does what it does on the command port, and any other, and what
is no command, is refused with no effect. -/
def Obligations.NestedCommandsRunInTheDelivery : Prop :=
  (∀ (s : State) (bs : List Byte) (i : Instr), decode ⟨.host, bs⟩ = .ok i → mayNest i = true →
    exec i s = .next (s.nestedCmd bs)) ∧
  (∀ (s : State) (bs : List Byte), (∀ i, decode ⟨.host, bs⟩ = .ok i → mayNest i = false) →
    s.nestedCmd bs = { s with answers := s.answers ++ [⟨.refused, .none⟩] }) ∧
  (∀ (s t : State) (c : Channel) (rx : Receiver) (cmds : List (List Byte)) (rest : List (List (List Byte))),
    s.rxData.crc = 0 → 6 < s.rxData.count → s.rxData.get 0 = s.expectedSeq →
    s.channel (s.rxData.get 1).toNat = some c → c.rx = some rx → s.nested = cmds :: rest →
    exec .wEod s = .next t →
    ∃ u v, exec (.schedack s.expectedSeq) s = .next u ∧
      v = cmds.foldl State.nestedCmd { u with answers := s.answers } ∧ t.chan = v.chan ∧ t.answers = v.answers)

/-- Derived as the spec marks R151: duplicate suppression: the bytes of a valid in-sequence data frame arriving twice schedule two
acknowledgments (while the ACK queue has room) and deliver once. -/
def Obligations.DuplicateFrameDeliversOnce : Prop :=
  ∀ (s t u : State) (ch : Byte) (p : List Byte) (c : Channel) (rx : Receiver),
    s.rxData = CodecBuf.empty → s.ackQ.len ≤ 1 → 1 ≤ p.length → p.length ≤ 256 →
    s.channel ch.toNat = some c → c.rx = some rx →
    t = s.afterBytes (builtData s.expectedSeq ch p).complete →
    u = t.afterBytes (builtData s.expectedSeq ch p).complete →
    t.delivered = s.delivered ++ [⟨ch, rx, p⟩] ∧ u.delivered = t.delivered ∧
    t.expectedSeq = s.expectedSeq + 1 ∧ u.expectedSeq = t.expectedSeq ∧
    u.ackQ.len = s.ackQ.len + 2 ∧
    (∀ j : Fin 3, j.val = s.ackQ.len ∨ j.val = s.ackQ.len + 1 → u.ackQ.slots[j] = builtAck s.expectedSeq)

/-- Derived from R139 and the spec's decision D36; the answers of `Transport.receive` are the state's (log 3): `RXDRAIN`
classifies the bytes that the calls of `Transport.receive` return, in arrival order whatever the
chunking, up to the first call that finds nothing pending. -/
def Obligations.RxdrainClassifiesInArrivalOrder : Prop :=
  ∀ (s : State) (chunks rest : List (List Byte)), (∀ bs ∈ chunks, bs ≠ []) →
    ((s.link.rx = chunks ++ [] :: rest) ∨ (s.link.rx = chunks ∧ rest = [] ∧ s.link.rxEndless = false)) →
    ∃ t, t = State.afterBytes { s with link := { s.link with rx := rest } } chunks.flatten ∧
      exec .rxdrain s = .next { t with answers := t.answers ++ [⟨.ok, .none⟩] }

/-! ## The engine: `TASK` -/

/-- Derived from R138 and the spec's decision D17 (what success is): `SYNCBURST`: nothing once Synchronized; else five SYNC bytes in one call, and only if all five are accepted the
engine is Synchronized, with the scheduler, the decoders and the expected number reset. -/
def Obligations.SyncburstResult : Prop :=
  ∀ s : State,
    (s.syncSent = true → exec .syncburst s = .next { s with answers := s.answers ++ [⟨.ok, .none⟩] }) ∧
    (s.syncSent = false → ∃ n l, s.link.transmit [0x2C, 0x2C, 0x2C, 0x2C, 0x2C] = (n, l) ∧
      (n ≠ 5 → exec .syncburst s = .next { s with link := l, answers := s.answers ++ [⟨.ok, .none⟩] }) ∧
      (n = 5 → ∃ t, exec .syncburst s = .next t ∧
        t = { s with link := l, syncSent := true, ackQ := t.ackQ, win := t.win, nackCount := 0, nextSeq := 0,
                     rxAck := CodecBuf.empty, rxData := CodecBuf.empty, expectedSeq := 0,
                     answers := s.answers ++ [⟨.ok, .none⟩] } ∧
        t.ackQ.len = 0 ∧ t.win.len = 0 ∧
        ∀ j : Fin 3, t.ackQ.slots[j] = CodecBuf.empty ∧
          t.win.slots[j] = { s.win.slots[j] with frame := CodecBuf.empty }))

/-- Derived from R149, R170, R55 and the spec's decisions D16, D19, D20: `TXSTEP`: above the low-water mark nothing is
asked; else the clock is read and the scheduler asked, and only if it returns a frame `rxAck` is flushed and the frame
handed to the transport, of which the first bytes, as many as the transport says it takes, go out behind what went before.
What the transport says is the state's (log 3). -/
def Obligations.TxstepResult : Prop :=
  ∀ (s : State) (n : Nat) (now : Time) (l1 l2 : Link), s.link.askLevel = (n, l1) → l1.askNow = (now, l2) →
    (24 < n → exec .txstep s = .next { s with link := l1, answers := s.answers ++ [⟨.ok, .none⟩] }) ∧
    (n ≤ 24 → ∃ u, exec (.getnext now) { s with link := l2 } = .next u ∧
      ((u.answers = s.answers ++ [⟨.fail, .none⟩] ∧
          exec .txstep s = .next { u with answers := s.answers ++ [⟨.ok, .none⟩] }) ∨
       (∃ f t k, u.answers = s.answers ++ [⟨.ok, .frame f⟩] ∧ exec .txstep s = .next t ∧
          t = { u with rxAck := CodecBuf.empty, link := t.link, answers := s.answers ++ [⟨.ok, .none⟩] } ∧
          l2.transmit f.bytes = (k, t.link) ∧ k ≤ f.bytes.length ∧ t.link.tx = s.link.tx ++ f.bytes.take k ∧
          (∀ m rest, l2.accepts = m :: rest →
            k = min m f.bytes.length ∧ t.link = { l2 with accepts := rest, tx := t.link.tx }))))

/-- Derived from R137, R138 and the spec's decisions D17, D18: unless it drains inbound bytes that never cease (log 3), `TASK`
is `SYNCBURST`, then, in the Synchronized state only, `RXDRAIN` and `TXSTEP`, in one step, with one answer
of its own behind those of the commands nested in its deliveries. -/
def Obligations.TaskRunsItsThreeSteps : Prop :=
  ∀ s : State,
    (s.link.rxEndless = false ∨ [] ∈ s.link.rx ∨
      (s.syncSent = false ∧ (s.link.transmit [0x2C, 0x2C, 0x2C, 0x2C, 0x2C]).1 ≠ 5)) →
    ∃ t t1, exec .task s = .next t ∧ exec .syncburst s = .next t1 ∧
      (t1.syncSent = false → t = t1) ∧
      (t1.syncSent = true → ∃ t2 t3 a, exec .rxdrain { t1 with answers := s.answers } = .next t2 ∧
        t2.answers = a ++ [⟨.ok, .none⟩] ∧ exec .txstep { t2 with answers := a } = .next t3 ∧ t = t3)
end

