-- ==== Sys2Proof/Laws/Decode.lean ====
section
/-! SUPPORT. What the readers of operand bytes give on what the encoder writes. -/

namespace Sys2Proof.Laws

@[simp] theorem length_beBytes (n v : Nat) : (beBytes n v).length = n := by
  induction n with
  | zero => rfl
  | succ n ih => simp [beBytes, ih]

/-- Reading on behind a number already read. -/
theorem foldl_beBytes (n v acc : Nat) :
    (beBytes n v).foldl (fun acc b => acc * 256 + b.toNat) acc = acc * 256 ^ n + v % 256 ^ n := by
  induction n generalizing acc with
  | zero => simp [beBytes, Nat.mod_one]
  | succ n ih =>
    rw [beBytes, List.foldl_cons, ih, BitVec.toNat_ofNat, show (2 : Nat) ^ 8 = 256 from rfl, Nat.pow_succ, Nat.mod_mul]
    generalize v / 256 ^ n % 256 = digit
    ring

theorem ofBe_beBytes (n v : Nat) : ofBe (beBytes n v) = v % 256 ^ n := by
  simp [ofBe, foldl_beBytes]

/-- A number read back, with what stands behind it. -/
theorem withNum_beBytes (n v : Nat) (r : List Byte) (f : Nat → List Byte → Decoded (Instr × List Byte)) :
    withNum n (beBytes n v ++ r) f = f (v % 256 ^ n) r := by
  have hlen : ¬ (beBytes n v ++ r).length < n := by simp
  rw [withNum, if_neg hlen, List.take_left' (length_beBytes n v), List.drop_left' (length_beBytes n v), ofBe_beBytes]

/-- A tag has at least one byte. -/
theorem tagBytes_pos : 0 < tagBytes := by
  unfold tagBytes Config.ctxW
  omega

/-- A tag fits its bytes. -/
theorem tag_lt (t : Tag) : t.toNat < 256 ^ tagBytes := by
  have hle : Config.ctxW ≤ 8 * tagBytes := by unfold tagBytes; omega
  calc t.toNat < 2 ^ Config.ctxW := t.isLt
    _ ≤ 2 ^ (8 * tagBytes) := Nat.pow_le_pow_right (by decide) hle
    _ = 256 ^ tagBytes := by rw [Nat.pow_mul]

/-- A tag read back, with what stands behind it. -/
theorem withTag_tagToBytes (t : Tag) (r : List Byte) (f : Tag → List Byte → Decoded (Instr × List Byte)) :
    withTag (tagToBytes t ++ r) f = f t r := by
  rw [withTag, tagToBytes, withNum_beBytes, Nat.mod_eq_of_lt (tag_lt t), if_pos t.isLt]
  simp

/-- `SETRX`'s operand read back, in either form. -/
theorem withRx_rxToBytes (op : RxOperand) (f : RxOperand → List Byte → Decoded (Instr × List Byte)) :
    withRx (rxToBytes op) f = f op [] := by
  cases op with
  | none => rfl
  | tags enable rx =>
    have hne : tagToBytes rx.cb ++ tagToBytes rx.ctx ≠ [] := by
      intro h
      have hl := congrArg List.length h
      have hp := tagBytes_pos
      simp only [tagToBytes, List.length_append, length_beBytes, List.length_nil] at hl
      omega
    have htags : ∀ g : RxOperand → List Byte → Decoded (Instr × List Byte),
        (withTag (tagToBytes rx.cb ++ tagToBytes rx.ctx) fun cb r => withTag r fun ctx r => g (.tags enable ⟨cb, ctx⟩) r) =
          g (.tags enable rx) [] := by
      intro g
      rw [withTag_tagToBytes, ← List.append_nil (tagToBytes rx.ctx), withTag_tagToBytes]
    cases enable <;> simp [withRx, withBit, withByte, rxToBytes, bitByte, hne, htags]

end Sys2Proof.Laws
end

