-- ==== Sys2Proof/Laws/State.lean ====
section
/-! SUPPORT. What each update of the state does to each field: one lemma per field per update, true by rfl. -/

namespace Sys2Proof.Machine

section answer

variable (s : State) (st : Status) (v : Value)

@[simp] theorem answer_chan : (s.answer st v).chan = s.chan := rfl
@[simp] theorem answer_rxAck : (s.answer st v).rxAck = s.rxAck := rfl
@[simp] theorem answer_rxData : (s.answer st v).rxData = s.rxData := rfl
@[simp] theorem answer_expectedSeq : (s.answer st v).expectedSeq = s.expectedSeq := rfl
@[simp] theorem answer_syncSent : (s.answer st v).syncSent = s.syncSent := rfl
@[simp] theorem answer_syncCount : (s.answer st v).syncCount = s.syncCount := rfl
@[simp] theorem answer_ackQ : (s.answer st v).ackQ = s.ackQ := rfl
@[simp] theorem answer_win : (s.answer st v).win = s.win := rfl
@[simp] theorem answer_nextSeq : (s.answer st v).nextSeq = s.nextSeq := rfl
@[simp] theorem answer_nackCount : (s.answer st v).nackCount = s.nackCount := rfl
@[simp] theorem answer_link : (s.answer st v).link = s.link := rfl
@[simp] theorem answer_requests : (s.answer st v).requests = s.requests := rfl
@[simp] theorem answer_nested : (s.answer st v).nested = s.nested := rfl
@[simp] theorem answer_answers : (s.answer st v).answers = s.answers ++ [⟨st, v⟩] := rfl
@[simp] theorem answer_delivered : (s.answer st v).delivered = s.delivered := rfl

end answer

section setChannel

variable (s : State) (id : Nat) (c : Option Channel)

@[simp] theorem setChannel_chan : (s.setChannel id c).chan = s.chan.setIfInBounds id c := rfl
@[simp] theorem setChannel_rxAck : (s.setChannel id c).rxAck = s.rxAck := rfl
@[simp] theorem setChannel_rxData : (s.setChannel id c).rxData = s.rxData := rfl
@[simp] theorem setChannel_expectedSeq : (s.setChannel id c).expectedSeq = s.expectedSeq := rfl
@[simp] theorem setChannel_syncSent : (s.setChannel id c).syncSent = s.syncSent := rfl
@[simp] theorem setChannel_syncCount : (s.setChannel id c).syncCount = s.syncCount := rfl
@[simp] theorem setChannel_ackQ : (s.setChannel id c).ackQ = s.ackQ := rfl
@[simp] theorem setChannel_win : (s.setChannel id c).win = s.win := rfl
@[simp] theorem setChannel_nextSeq : (s.setChannel id c).nextSeq = s.nextSeq := rfl
@[simp] theorem setChannel_nackCount : (s.setChannel id c).nackCount = s.nackCount := rfl
@[simp] theorem setChannel_link : (s.setChannel id c).link = s.link := rfl
@[simp] theorem setChannel_requests : (s.setChannel id c).requests = s.requests := rfl
@[simp] theorem setChannel_nested : (s.setChannel id c).nested = s.nested := rfl
@[simp] theorem setChannel_answers : (s.setChannel id c).answers = s.answers := rfl
@[simp] theorem setChannel_delivered : (s.setChannel id c).delivered = s.delivered := rfl

end setChannel

section setAckFrame

variable (s : State) (i : Fin 3) (E : CodecBuf)

@[simp] theorem setAckFrame_chan : (s.setAckFrame i E).chan = s.chan := rfl
@[simp] theorem setAckFrame_rxAck : (s.setAckFrame i E).rxAck = s.rxAck := rfl
@[simp] theorem setAckFrame_rxData : (s.setAckFrame i E).rxData = s.rxData := rfl
@[simp] theorem setAckFrame_expectedSeq : (s.setAckFrame i E).expectedSeq = s.expectedSeq := rfl
@[simp] theorem setAckFrame_syncSent : (s.setAckFrame i E).syncSent = s.syncSent := rfl
@[simp] theorem setAckFrame_syncCount : (s.setAckFrame i E).syncCount = s.syncCount := rfl
@[simp] theorem setAckFrame_ackQ : (s.setAckFrame i E).ackQ = s.ackQ.put i E := rfl
@[simp] theorem setAckFrame_win : (s.setAckFrame i E).win = s.win := rfl
@[simp] theorem setAckFrame_nextSeq : (s.setAckFrame i E).nextSeq = s.nextSeq := rfl
@[simp] theorem setAckFrame_nackCount : (s.setAckFrame i E).nackCount = s.nackCount := rfl
@[simp] theorem setAckFrame_link : (s.setAckFrame i E).link = s.link := rfl
@[simp] theorem setAckFrame_requests : (s.setAckFrame i E).requests = s.requests := rfl
@[simp] theorem setAckFrame_nested : (s.setAckFrame i E).nested = s.nested := rfl
@[simp] theorem setAckFrame_answers : (s.setAckFrame i E).answers = s.answers := rfl
@[simp] theorem setAckFrame_delivered : (s.setAckFrame i E).delivered = s.delivered := rfl

end setAckFrame

section setWinFrame

variable (s : State) (i : Fin 3) (E : CodecBuf)

@[simp] theorem setWinFrame_chan : (s.setWinFrame i E).chan = s.chan := rfl
@[simp] theorem setWinFrame_rxAck : (s.setWinFrame i E).rxAck = s.rxAck := rfl
@[simp] theorem setWinFrame_rxData : (s.setWinFrame i E).rxData = s.rxData := rfl
@[simp] theorem setWinFrame_expectedSeq : (s.setWinFrame i E).expectedSeq = s.expectedSeq := rfl
@[simp] theorem setWinFrame_syncSent : (s.setWinFrame i E).syncSent = s.syncSent := rfl
@[simp] theorem setWinFrame_syncCount : (s.setWinFrame i E).syncCount = s.syncCount := rfl
@[simp] theorem setWinFrame_ackQ : (s.setWinFrame i E).ackQ = s.ackQ := rfl
@[simp] theorem setWinFrame_win : (s.setWinFrame i E).win = s.win.put i { s.win.slots[i] with frame := E } := rfl
@[simp] theorem setWinFrame_nextSeq : (s.setWinFrame i E).nextSeq = s.nextSeq := rfl
@[simp] theorem setWinFrame_nackCount : (s.setWinFrame i E).nackCount = s.nackCount := rfl
@[simp] theorem setWinFrame_link : (s.setWinFrame i E).link = s.link := rfl
@[simp] theorem setWinFrame_requests : (s.setWinFrame i E).requests = s.requests := rfl
@[simp] theorem setWinFrame_nested : (s.setWinFrame i E).nested = s.nested := rfl
@[simp] theorem setWinFrame_answers : (s.setWinFrame i E).answers = s.answers := rfl
@[simp] theorem setWinFrame_delivered : (s.setWinFrame i E).delivered = s.delivered := rfl

end setWinFrame

section endSyncRun

variable (s : State)

@[simp] theorem endSyncRun_chan : s.endSyncRun.chan = s.chan := rfl
@[simp] theorem endSyncRun_rxAck : s.endSyncRun.rxAck = s.rxAck := rfl
@[simp] theorem endSyncRun_rxData : s.endSyncRun.rxData = s.rxData := rfl
@[simp] theorem endSyncRun_expectedSeq : s.endSyncRun.expectedSeq = s.expectedSeq := rfl
@[simp] theorem endSyncRun_syncSent : s.endSyncRun.syncSent = s.syncSent := rfl
@[simp] theorem endSyncRun_syncCount : s.endSyncRun.syncCount = 0 := rfl
@[simp] theorem endSyncRun_ackQ : s.endSyncRun.ackQ = s.ackQ := rfl
@[simp] theorem endSyncRun_win : s.endSyncRun.win = s.win := rfl
@[simp] theorem endSyncRun_nextSeq : s.endSyncRun.nextSeq = s.nextSeq := rfl
@[simp] theorem endSyncRun_nackCount : s.endSyncRun.nackCount = s.nackCount := rfl
@[simp] theorem endSyncRun_link : s.endSyncRun.link = s.link := rfl
@[simp] theorem endSyncRun_requests : s.endSyncRun.requests = s.requests := rfl
@[simp] theorem endSyncRun_nested : s.endSyncRun.nested = s.nested := rfl
@[simp] theorem endSyncRun_answers : s.endSyncRun.answers = s.answers := rfl
@[simp] theorem endSyncRun_delivered : s.endSyncRun.delivered = s.delivered := rfl

end endSyncRun

section rxAckByte

variable (s : State) (b : Byte)

@[simp] theorem rxAckByte_chan : (s.rxAckByte b).chan = s.chan := rfl
@[simp] theorem rxAckByte_rxAck : (s.rxAckByte b).rxAck = s.rxAck.decPush .ack b := rfl
@[simp] theorem rxAckByte_rxData : (s.rxAckByte b).rxData = s.rxData := rfl
@[simp] theorem rxAckByte_expectedSeq : (s.rxAckByte b).expectedSeq = s.expectedSeq := rfl
@[simp] theorem rxAckByte_syncSent : (s.rxAckByte b).syncSent = s.syncSent := rfl
@[simp] theorem rxAckByte_syncCount : (s.rxAckByte b).syncCount = s.syncCount := rfl
@[simp] theorem rxAckByte_ackQ : (s.rxAckByte b).ackQ = s.ackQ := rfl
@[simp] theorem rxAckByte_win : (s.rxAckByte b).win = s.win := rfl
@[simp] theorem rxAckByte_nextSeq : (s.rxAckByte b).nextSeq = s.nextSeq := rfl
@[simp] theorem rxAckByte_nackCount : (s.rxAckByte b).nackCount = s.nackCount := rfl
@[simp] theorem rxAckByte_link : (s.rxAckByte b).link = s.link := rfl
@[simp] theorem rxAckByte_requests : (s.rxAckByte b).requests = s.requests := rfl
@[simp] theorem rxAckByte_nested : (s.rxAckByte b).nested = s.nested := rfl
@[simp] theorem rxAckByte_answers : (s.rxAckByte b).answers = s.answers := rfl
@[simp] theorem rxAckByte_delivered : (s.rxAckByte b).delivered = s.delivered := rfl

end rxAckByte

section rxDataByte

variable (s : State) (b : Byte)

@[simp] theorem rxDataByte_chan : (s.rxDataByte b).chan = s.chan := rfl
@[simp] theorem rxDataByte_rxAck : (s.rxDataByte b).rxAck = s.rxAck := rfl
@[simp] theorem rxDataByte_rxData : (s.rxDataByte b).rxData = s.rxData.decPush .data b := rfl
@[simp] theorem rxDataByte_expectedSeq : (s.rxDataByte b).expectedSeq = s.expectedSeq := rfl
@[simp] theorem rxDataByte_syncSent : (s.rxDataByte b).syncSent = s.syncSent := rfl
@[simp] theorem rxDataByte_syncCount : (s.rxDataByte b).syncCount = s.syncCount := rfl
@[simp] theorem rxDataByte_ackQ : (s.rxDataByte b).ackQ = s.ackQ := rfl
@[simp] theorem rxDataByte_win : (s.rxDataByte b).win = s.win := rfl
@[simp] theorem rxDataByte_nextSeq : (s.rxDataByte b).nextSeq = s.nextSeq := rfl
@[simp] theorem rxDataByte_nackCount : (s.rxDataByte b).nackCount = s.nackCount := rfl
@[simp] theorem rxDataByte_link : (s.rxDataByte b).link = s.link := rfl
@[simp] theorem rxDataByte_requests : (s.rxDataByte b).requests = s.requests := rfl
@[simp] theorem rxDataByte_nested : (s.rxDataByte b).nested = s.nested := rfl
@[simp] theorem rxDataByte_answers : (s.rxDataByte b).answers = s.answers := rfl
@[simp] theorem rxDataByte_delivered : (s.rxDataByte b).delivered = s.delivered := rfl

end rxDataByte

section flushDecoders

variable (s : State)

@[simp] theorem flushDecoders_chan : s.flushDecoders.chan = s.chan := rfl
@[simp] theorem flushDecoders_rxAck : s.flushDecoders.rxAck = s.rxAck.flush := rfl
@[simp] theorem flushDecoders_rxData : s.flushDecoders.rxData = s.rxData.flush := rfl
@[simp] theorem flushDecoders_expectedSeq : s.flushDecoders.expectedSeq = s.expectedSeq := rfl
@[simp] theorem flushDecoders_syncSent : s.flushDecoders.syncSent = s.syncSent := rfl
@[simp] theorem flushDecoders_syncCount : s.flushDecoders.syncCount = s.syncCount := rfl
@[simp] theorem flushDecoders_ackQ : s.flushDecoders.ackQ = s.ackQ := rfl
@[simp] theorem flushDecoders_win : s.flushDecoders.win = s.win := rfl
@[simp] theorem flushDecoders_nextSeq : s.flushDecoders.nextSeq = s.nextSeq := rfl
@[simp] theorem flushDecoders_nackCount : s.flushDecoders.nackCount = s.nackCount := rfl
@[simp] theorem flushDecoders_link : s.flushDecoders.link = s.link := rfl
@[simp] theorem flushDecoders_requests : s.flushDecoders.requests = s.requests := rfl
@[simp] theorem flushDecoders_nested : s.flushDecoders.nested = s.nested := rfl
@[simp] theorem flushDecoders_answers : s.flushDecoders.answers = s.answers := rfl
@[simp] theorem flushDecoders_delivered : s.flushDecoders.delivered = s.delivered := rfl

end flushDecoders

section schedReset

variable (s : State)

@[simp] theorem schedReset_chan : s.schedReset.chan = s.chan := rfl
@[simp] theorem schedReset_rxAck : s.schedReset.rxAck = s.rxAck := rfl
@[simp] theorem schedReset_rxData : s.schedReset.rxData = s.rxData := rfl
@[simp] theorem schedReset_expectedSeq : s.schedReset.expectedSeq = s.expectedSeq := rfl
@[simp] theorem schedReset_syncSent : s.schedReset.syncSent = s.syncSent := rfl
@[simp] theorem schedReset_syncCount : s.schedReset.syncCount = s.syncCount := rfl
@[simp] theorem schedReset_ackQ : s.schedReset.ackQ = { slots := s.ackQ.slots.map CodecBuf.flush, len := 0 } := rfl
@[simp] theorem schedReset_win : s.schedReset.win = { slots := s.win.slots.map (fun w => { w with frame := w.frame.flush }), len := 0 } := rfl
@[simp] theorem schedReset_nextSeq : s.schedReset.nextSeq = 0 := rfl
@[simp] theorem schedReset_nackCount : s.schedReset.nackCount = 0 := rfl
@[simp] theorem schedReset_link : s.schedReset.link = s.link := rfl
@[simp] theorem schedReset_requests : s.schedReset.requests = s.requests := rfl
@[simp] theorem schedReset_nested : s.schedReset.nested = s.nested := rfl
@[simp] theorem schedReset_answers : s.schedReset.answers = s.answers := rfl
@[simp] theorem schedReset_delivered : s.schedReset.delivered = s.delivered := rfl

end schedReset

section doResync

variable (s : State)

@[simp] theorem doResync_chan : s.doResync.chan = s.chan := rfl
@[simp] theorem doResync_rxAck : s.doResync.rxAck = s.rxAck.flush := rfl
@[simp] theorem doResync_rxData : s.doResync.rxData = s.rxData.flush := rfl
@[simp] theorem doResync_expectedSeq : s.doResync.expectedSeq = 0 := rfl
@[simp] theorem doResync_syncSent : s.doResync.syncSent = s.syncSent := rfl
@[simp] theorem doResync_syncCount : s.doResync.syncCount = s.syncCount := rfl
@[simp] theorem doResync_ackQ : s.doResync.ackQ = { slots := s.ackQ.slots.map CodecBuf.flush, len := 0 } := rfl
@[simp] theorem doResync_win : s.doResync.win = { slots := s.win.slots.map (fun w => { w with frame := w.frame.flush }), len := 0 } := rfl
@[simp] theorem doResync_nextSeq : s.doResync.nextSeq = 0 := rfl
@[simp] theorem doResync_nackCount : s.doResync.nackCount = 0 := rfl
@[simp] theorem doResync_link : s.doResync.link = s.link := rfl
@[simp] theorem doResync_requests : s.doResync.requests = s.requests := rfl
@[simp] theorem doResync_nested : s.doResync.nested = s.nested := rfl
@[simp] theorem doResync_answers : s.doResync.answers = s.answers := rfl
@[simp] theorem doResync_delivered : s.doResync.delivered = s.delivered := rfl

end doResync

section deliverEntry

variable (s : State) (ch : Byte) (rx : Receiver) (p : List Byte)

@[simp] theorem deliverEntry_chan : (s.deliverEntry ch rx p).chan = s.chan := rfl
@[simp] theorem deliverEntry_rxAck : (s.deliverEntry ch rx p).rxAck = s.rxAck := rfl
@[simp] theorem deliverEntry_rxData : (s.deliverEntry ch rx p).rxData = s.rxData := rfl
@[simp] theorem deliverEntry_expectedSeq : (s.deliverEntry ch rx p).expectedSeq = s.expectedSeq := rfl
@[simp] theorem deliverEntry_syncSent : (s.deliverEntry ch rx p).syncSent = s.syncSent := rfl
@[simp] theorem deliverEntry_syncCount : (s.deliverEntry ch rx p).syncCount = s.syncCount := rfl
@[simp] theorem deliverEntry_ackQ : (s.deliverEntry ch rx p).ackQ = s.ackQ := rfl
@[simp] theorem deliverEntry_win : (s.deliverEntry ch rx p).win = s.win := rfl
@[simp] theorem deliverEntry_nextSeq : (s.deliverEntry ch rx p).nextSeq = s.nextSeq := rfl
@[simp] theorem deliverEntry_nackCount : (s.deliverEntry ch rx p).nackCount = s.nackCount := rfl
@[simp] theorem deliverEntry_link : (s.deliverEntry ch rx p).link = s.link := rfl
@[simp] theorem deliverEntry_requests : (s.deliverEntry ch rx p).requests = s.requests := rfl
@[simp] theorem deliverEntry_nested : (s.deliverEntry ch rx p).nested = s.nested := rfl
@[simp] theorem deliverEntry_answers : (s.deliverEntry ch rx p).answers = s.answers := rfl
@[simp] theorem deliverEntry_delivered : (s.deliverEntry ch rx p).delivered = s.delivered ++ [⟨ch, rx, p⟩] := rfl

end deliverEntry

section takeRequest

variable (s : State)

@[simp] theorem takeRequest_chan : s.takeRequest.chan = s.chan := rfl
@[simp] theorem takeRequest_rxAck : s.takeRequest.rxAck = s.rxAck := rfl
@[simp] theorem takeRequest_rxData : s.takeRequest.rxData = s.rxData := rfl
@[simp] theorem takeRequest_expectedSeq : s.takeRequest.expectedSeq = s.expectedSeq := rfl
@[simp] theorem takeRequest_syncSent : s.takeRequest.syncSent = s.syncSent := rfl
@[simp] theorem takeRequest_syncCount : s.takeRequest.syncCount = s.syncCount := rfl
@[simp] theorem takeRequest_ackQ : s.takeRequest.ackQ = s.ackQ := rfl
@[simp] theorem takeRequest_win : s.takeRequest.win = s.win := rfl
@[simp] theorem takeRequest_nextSeq : s.takeRequest.nextSeq = s.nextSeq := rfl
@[simp] theorem takeRequest_nackCount : s.takeRequest.nackCount = s.nackCount := rfl
@[simp] theorem takeRequest_link : s.takeRequest.link = s.link := rfl
@[simp] theorem takeRequest_requests : s.takeRequest.requests = s.requests.tail := rfl
@[simp] theorem takeRequest_nested : s.takeRequest.nested = s.nested := rfl
@[simp] theorem takeRequest_answers : s.takeRequest.answers = s.answers := rfl
@[simp] theorem takeRequest_delivered : s.takeRequest.delivered = s.delivered := rfl

end takeRequest

end Sys2Proof.Machine
end

