-- ==== Sys2Proof/Laws/Ops.lean ====
section
/-! SUPPORT. What each shared operation can do, said once: a frame equation (`op s = { s with … }`, which names every field
that may change), and the cases of its effect. -/

namespace Sys2Proof.Machine

/-! ## Slots and entries -/

@[simp] theorem channel_setChannel_same (s : State) (id : Nat) (c : Option Channel) (h : id < 8) :
    (s.setChannel id c).channel id = c := by simp [State.channel, h]

@[simp] theorem channel_setChannel_ne (s : State) (id j : Nat) (c : Option Channel) (h : id ≠ j) :
    (s.setChannel id c).channel j = s.channel j := by
  simp [State.channel, h]

theorem channel_none_of_ge (s : State) (id : Nat) (h : 8 ≤ id) : s.channel id = none := by
  simp [State.channel, Vector.getElem?_eq_none h]

theorem lt_of_channel_some (s : State) (id : Nat) (c : Channel) (h : s.channel id = some c) : id < 8 := by
  by_contra hge
  simp [channel_none_of_ge s id (by omega)] at h

@[simp] theorem channel_congr (s t : State) (h : t.chan = s.chan) (id : Nat) : t.channel id = s.channel id := by
  simp [State.channel, h]

@[simp] theorem put_len {α : Type} (f : Fifo α) (i : Fin 3) (x : α) : (f.put i x).len = f.len := rfl

theorem put_slot {α : Type} (f : Fifo α) (i j : Fin 3) (x : α) :
    (f.put i x).slots[j] = if i = j then x else f.slots[j] := by
  simp only [Fifo.put, Fin.getElem_fin, Vector.getElem_set, Fin.ext_iff]

@[simp] theorem push_len {α : Type} (f : Fifo α) (i : Fin 3) (x : α) : (f.push i x).len = f.len + 1 := rfl

theorem push_slot {α : Type} (f : Fifo α) (i j : Fin 3) (x : α) :
    (f.push i x).slots[j] = if i = j then x else f.slots[j] := by
  simp only [Fifo.push, Fin.getElem_fin, Vector.getElem_set, Fin.ext_iff]

@[simp] theorem pop_len {α : Type} (f : Fifo α) (x : α) : (f.pop x).len = f.len - 1 := rfl

/-- After a pop each entry has moved one place to the head. -/
theorem pop_slot {α : Type} (f : Fifo α) (x : α) (i : Nat) (h : i + 1 < 3) :
    (f.pop x).slots[i] = f.slots[i + 1] := by
  rcases i with _ | _ | i
  · rfl
  · rfl
  · omega

@[simp] theorem pop_last {α : Type} (f : Fifo α) (x : α) : (f.pop x).slots[2] = x := rfl

/-! ## Codec buffers -/

@[simp] theorem flush_eq_empty (E : CodecBuf) : E.flush = CodecBuf.empty := rfl

theorem hasRoom_iff (k : Kind) (E : CodecBuf) : E.hasRoom k = true ↔ E.count + 2 ≤ k.cap := by
  simp [CodecBuf.hasRoom]

theorem encPush_full (k : Kind) (E : CodecBuf) (b : Byte) (h : k.cap < E.count + 2) : E.encPush k b = E := by
  have : E.hasRoom k = false := by simp [CodecBuf.hasRoom]; omega
  simp [CodecBuf.encPush, this]

theorem decPush_full (k : Kind) (D : CodecBuf) (e : Byte) (h : k.cap < D.count + 2) : D.decPush k e = D := by
  have : D.hasRoom k = false := by simp [CodecBuf.hasRoom]; omega
  simp [CodecBuf.decPush, this]

theorem empty_encOk (k : Kind) : CodecBuf.empty.EncOk k := by
  cases k <;> exact ⟨by decide, rfl, by decide⟩

theorem empty_decOk (k : Kind) : CodecBuf.empty.DecOk k := by
  cases k <;> exact ⟨by decide, rfl, by decide⟩

theorem Kind.group_pos (k : Kind) : 0 < k.group := by cases k <;> decide

theorem Kind.one_lt_positions (k : Kind) : 1 < k.positions := by cases k <;> decide

/-- The complete bytes stand in the defined content. -/
theorem CodecBuf.EncOk.count_le {k : Kind} {E : CodecBuf} (h : E.EncOk k) : E.count ≤ E.bytes.length := by
  have := h.length_eq; split at this <;> omega

theorem CodecBuf.DecOk.count_le {k : Kind} {D : CodecBuf} (h : D.DecOk k) : D.count ≤ D.bytes.length := by
  have := h.length_eq; split at this <;> omega

/-- A push keeps an encode buffer's ranges. -/
theorem encPush_encOk (k : Kind) (E : CodecBuf) (b : Byte) (h : E.EncOk k) : (E.encPush k b).EncOk k := by
  by_cases hr : E.hasRoom k
  · have hroom := (hasRoom_iff k E).1 hr
    have hlen : (E.bytes.take E.count).length = E.count := by simp [h.count_le]
    have hs := h.step_lt
    unfold CodecBuf.encPush
    rw [if_pos hr]
    by_cases hl : E.step + 1 = k.group
    · simp only [hl, decide_true, if_true]
      exact ⟨k.group_pos, by simp [hlen], by simp [hlen]; omega⟩
    · simp only [hl, decide_false]
      exact ⟨by simp; omega, by simp [hlen], by simp [hlen]; omega⟩
  · unfold CodecBuf.encPush
    rwa [if_neg hr]

theorem encPushAll_encOk (k : Kind) (bs : List Byte) (E : CodecBuf) (h : E.EncOk k) : (E.encPushAll k bs).EncOk k := by
  induction bs generalizing E with
  | nil => exact h
  | cons b bs ih => exact ih _ (encPush_encOk k E b h)

theorem encPush32_encOk (k : Kind) (E : CodecBuf) (v : Word) (h : E.EncOk k) : (E.encPush32 k v).EncOk k :=
  encPushAll_encOk k _ E h

/-- The terminator keeps an encode buffer's ranges. -/
theorem encEnd_encOk (k : Kind) (E : CodecBuf) (h : E.EncOk k) : (E.encEnd k).EncOk k := by
  by_cases hr : E.hasEndRoom k
  · have hroom : E.count + E.endNeed ≤ k.cap := by simpa [CodecBuf.hasEndRoom] using hr
    have hlen := h.length_eq
    unfold CodecBuf.encEnd
    rw [if_pos hr]
    by_cases hs : E.step = 0
    · simp only [CodecBuf.endNeed, hs, if_true] at *
      refine ⟨k.group_pos, by simp; omega, by simp; omega⟩
    · simp only [CodecBuf.endNeed, hs, if_false] at *
      refine ⟨k.group_pos, by simp; omega, by simp; omega⟩
  · unfold CodecBuf.encEnd
    rwa [if_neg hr]

/-- A push keeps a decode buffer's ranges. -/
theorem decPush_decOk (k : Kind) (D : CodecBuf) (e : Byte) (h : D.DecOk k) : (D.decPush k e).DecOk k := by
  by_cases hr : D.hasRoom k
  · have hroom := (hasRoom_iff k D).1 hr
    have hlen : (D.bytes.take D.count).length = D.count := by simp [h.count_le]
    have hs := h.step_lt
    unfold CodecBuf.decPush
    simp only [hr, if_true]
    by_cases h0 : D.step = 0
    · simp only [h0, if_true]
      exact ⟨k.one_lt_positions, by simp [hlen], by simp [hlen]; omega⟩
    · simp only [h0, if_false]
      by_cases hl : D.step + 1 < k.positions
      · simp only [hl, if_true]
        exact ⟨hl, by simp [hlen], by simp [hlen]; omega⟩
      · simp only [hl, if_false]
        exact ⟨Nat.lt_trans Nat.zero_lt_one k.one_lt_positions, by simp [hlen], by simp [hlen]; omega⟩
  · unfold CodecBuf.decPush
    simp only [hr]
    exact h

/-- A built ACK frame does not depend on the buffer it is built in. -/
theorem buildAck_eq (E : CodecBuf) (seq : Byte) : E.buildAck seq = builtAck seq := rfl

/-- A built data frame does not depend on the buffer it is built in. -/
theorem buildData_eq (E : CodecBuf) (seq ch : Byte) (payload : List Byte) :
    E.buildData seq ch payload = builtData seq ch payload := rfl

theorem builtAck_encOk (seq : Byte) : (builtAck seq).EncOk .ack :=
  encEnd_encOk _ _ (encPush32_encOk _ _ _ (encPush_encOk _ _ _ (empty_encOk _)))

theorem builtData_encOk (seq ch : Byte) (payload : List Byte) : (builtData seq ch payload).EncOk .data :=
  encEnd_encOk _ _ (encPush32_encOk _ _ _ (encPushAll_encOk _ _ _ (encPush_encOk _ _ _ (encPush_encOk _ _ _ (empty_encOk _)))))

/-! ## The transport and the clock -/

/-- `transmit` takes a leading part of the bytes and says how long it is; nothing inbound changes. -/
theorem transmit_spec (l : Link) (bs : List Byte) :
    (l.transmit bs).1 ≤ bs.length ∧ (l.transmit bs).2.tx = l.tx ++ bs.take (l.transmit bs).1 ∧
    (l.transmit bs).2.rx = l.rx ∧ (l.transmit bs).2.rxEndless = l.rxEndless ∧
    (l.transmit bs).2.levels = l.levels ∧ (l.transmit bs).2.clock = l.clock := by
  unfold Link.transmit
  split <;> simp [List.take_eq_take_iff]

/-- The level query changes nothing but the answers still to come. -/
theorem askLevel_spec (l : Link) :
    (l.askLevel).2.tx = l.tx ∧ (l.askLevel).2.rx = l.rx ∧ (l.askLevel).2.rxEndless = l.rxEndless ∧
    (l.askLevel).2.accepts = l.accepts ∧ (l.askLevel).2.clock = l.clock := by
  unfold Link.askLevel
  split <;> simp

/-- The clock query changes nothing but the answers still to come. -/
theorem askNow_spec (l : Link) :
    (l.askNow).2.tx = l.tx ∧ (l.askNow).2.rx = l.rx ∧ (l.askNow).2.rxEndless = l.rxEndless ∧
    (l.askNow).2.accepts = l.accepts ∧ (l.askNow).2.levels = l.levels := by
  unfold Link.askNow
  split <;> simp

/-! ## Frame equations: every field that an operation may change -/

/-- A channel command touches the channels and answers. -/
theorem onChannel_frame (s : State) (id : Byte) (f : Channel → State)
    (h : ∀ c, f c = { s with chan := (f c).chan, answers := (f c).answers }) :
    s.onChannel id f = { s with chan := (s.onChannel id f).chan, answers := (s.onChannel id f).answers } := by
  unfold State.onChannel
  split
  · rfl
  · exact h _

theorem nestedCmd_frame (s : State) (bs : List Byte) :
    s.nestedCmd bs = { s with chan := (s.nestedCmd bs).chan, answers := (s.nestedCmd bs).answers } := by
  unfold State.nestedCmd
  split
  · exact onChannel_frame _ _ _ fun _ => rfl
  · exact onChannel_frame _ _ _ fun _ => rfl
  · exact onChannel_frame _ _ _ fun _ => rfl
  · exact onChannel_frame _ _ _ fun _ => rfl
  · exact onChannel_frame _ _ _ fun _ => rfl
  · rfl
  · rfl

theorem nestedAll_frame (cmds : List (List Byte)) (s : State) :
    cmds.foldl State.nestedCmd s =
      { s with chan := (cmds.foldl State.nestedCmd s).chan, answers := (cmds.foldl State.nestedCmd s).answers } := by
  induction cmds generalizing s with
  | nil => rfl
  | cons c cmds ih =>
    rw [List.foldl_cons, ih, nestedCmd_frame s c]

theorem deliverReturn_frame (s : State) :
    s.deliverReturn = { s with chan := s.deliverReturn.chan, answers := s.deliverReturn.answers,
                               nested := s.deliverReturn.nested } := by
  unfold State.deliverReturn
  split
  · rfl
  · rw [nestedAll_frame]

theorem deliver_frame (s : State) (ch : Byte) (rx : Receiver) (p : List Byte) :
    s.deliver ch rx p =
      { s with chan := (s.deliver ch rx p).chan, answers := (s.deliver ch rx p).answers,
               nested := (s.deliver ch rx p).nested, delivered := s.delivered ++ [⟨ch, rx, p⟩] } := by
  unfold State.deliver
  rw [deliverReturn_frame]
  rfl

theorem schedAck_frame (s : State) (seq : Byte) : s.schedAck seq = { s with ackQ := (s.schedAck seq).ackQ } := by
  unfold State.schedAck
  split <;> rfl

/-- `SCHEDACK` appends the number's ACK frame, or has no effect. -/
theorem schedAck_cases (s : State) (seq : Byte) :
    (∃ h : s.ackQ.len < 3, (s.schedAck seq).ackQ = s.ackQ.push ⟨s.ackQ.len, h⟩ (builtAck seq)) ∨
    (3 ≤ s.ackQ.len ∧ s.schedAck seq = s) := by
  by_cases h : s.ackQ.len < 3
  · exact .inl ⟨h, by simp [State.schedAck, h, buildAck_eq]⟩
  · exact .inr ⟨by omega, by simp [State.schedAck, h]⟩

theorem ackXfer_frame (s : State) (seq : Byte) :
    s.ackXfer seq = { s with win := (s.ackXfer seq).win, nackCount := (s.ackXfer seq).nackCount } := by
  unfold State.ackXfer
  split <;> rfl

/-- `ACKX` removes the oldest frame and clears the nack counter, or has no effect. -/
theorem ackXfer_cases (s : State) (seq : Byte) :
    (s.ackMatches seq = true ∧ 0 < s.win.len ∧
      s.ackXfer seq = { s with win := s.win.pop { s.win.head with frame := CodecBuf.empty }, nackCount := 0 }) ∨
    (s.ackMatches seq = false ∧ s.ackXfer seq = s) := by
  cases hm : s.ackMatches seq
  · exact .inr ⟨rfl, by simp [State.ackXfer, hm]⟩
  · refine .inl ⟨rfl, ?_, by simp [State.ackXfer, hm]⟩
    simp [State.ackMatches] at hm
    exact hm.1

/-- The chosen channel is open, eligible, and one of the eight. -/
theorem firstEligible_some (s : State) (id : Nat) (c : Channel) (h : s.firstEligible = some (id, c)) :
    id < 8 ∧ s.channel id = some c ∧ c.eligible = true := by
  simp only [State.firstEligible, List.findSome?_eq_some_iff] at h
  obtain ⟨pre, a, post, hl, ha, -⟩ := h
  have hid : a < 8 := List.mem_range.1 (hl ▸ by simp)
  split at ha
  · split at ha
    · next he => cases ha; exact ⟨hid, ‹_›, he⟩
    · cases ha
  · cases ha

theorem getNext_frame (s : State) (now : Time) :
    (s.getNext now).2 =
      { s with chan := (s.getNext now).2.chan, ackQ := (s.getNext now).2.ackQ, win := (s.getNext now).2.win,
               nextSeq := (s.getNext now).2.nextSeq, nackCount := (s.getNext now).2.nackCount } := by
  unfold State.getNext
  split
  · rfl
  · split
    · rfl
    · split
      · rfl
      · split <;> rfl

/-- `GETNEXT` acts by exactly one of its steps, or by none. -/
theorem getNext_cases (s : State) (now : Time) :
    (0 < s.ackQ.len ∧ s.getNext now = s.sendQueuedAck) ∨
    (s.ackQ.len = 0 ∧ 0 < s.win.len ∧ timedOut now s.win.head.deadline = true ∧ s.getNext now = s.retransmit now) ∨
    (∃ id c, ∃ h : s.win.len < 3, s.ackQ.len = 0 ∧ s.firstEligible = some (id, c) ∧
      s.getNext now = s.buildNew now id c ⟨s.win.len, h⟩) ∨
    (s.getNext now = (none, s)) := by
  unfold State.getNext
  by_cases ha : 0 < s.ackQ.len
  · exact .inl ⟨ha, by rw [if_pos ha]⟩
  · rw [if_neg ha]
    by_cases hr : 0 < s.win.len ∧ timedOut now s.win.head.deadline = true
    · exact .inr (.inl ⟨by omega, hr.1, hr.2, by rw [if_pos hr]⟩)
    · rw [if_neg hr]
      cases hf : s.firstEligible with
      | none => exact .inr (.inr (.inr rfl))
      | some p =>
        by_cases hw : s.win.len < 3
        · exact .inr (.inr (.inl ⟨p.1, p.2, hw, by omega, rfl, by simp [hw]⟩))
        · exact .inr (.inr (.inr (by simp [hw])))

theorem rxSync_frame (s : State) :
    s.rxSync = { s with rxAck := s.rxSync.rxAck, rxData := s.rxSync.rxData, ackQ := s.rxSync.ackQ, win := s.rxSync.win,
                        nackCount := s.rxSync.nackCount, nextSeq := s.rxSync.nextSeq,
                        expectedSeq := s.rxSync.expectedSeq, syncCount := s.rxSync.syncCount } := by
  unfold State.rxSync
  split <;> rfl

theorem rxEndOfAck_frame (s : State) :
    s.rxEndOfAck = { s with rxAck := CodecBuf.empty, win := s.rxEndOfAck.win, nackCount := s.rxEndOfAck.nackCount } := by
  unfold State.rxEndOfAck
  split
  · rw [ackXfer_frame]; rfl
  · rfl

theorem deliverPayload_frame (s : State) :
    s.deliverPayload =
      { s with chan := s.deliverPayload.chan, answers := s.deliverPayload.answers, nested := s.deliverPayload.nested,
               delivered := s.deliverPayload.delivered } := by
  unfold State.deliverPayload
  split
  · rw [deliver_frame]
  · rfl

theorem acceptInSequence_frame (s : State) :
    s.acceptInSequence =
      { s with chan := s.acceptInSequence.chan, answers := s.acceptInSequence.answers,
               nested := s.acceptInSequence.nested, delivered := s.acceptInSequence.delivered,
               expectedSeq := s.expectedSeq + 1 } := by
  unfold State.acceptInSequence
  rw [deliverPayload_frame]

theorem acceptData_frame (s : State) :
    s.acceptData =
      { s with chan := s.acceptData.chan, answers := s.acceptData.answers, nested := s.acceptData.nested,
               delivered := s.acceptData.delivered, expectedSeq := s.acceptData.expectedSeq,
               ackQ := (s.schedAck (s.rxData.get 0)).ackQ } := by
  unfold State.acceptData
  dsimp only
  split
  · rw [acceptInSequence_frame, schedAck_frame]
  · rw [schedAck_frame]

theorem rxEndOfData_frame (s : State) :
    s.rxEndOfData =
      { s with chan := s.rxEndOfData.chan, answers := s.rxEndOfData.answers, nested := s.rxEndOfData.nested,
               delivered := s.rxEndOfData.delivered, expectedSeq := s.rxEndOfData.expectedSeq,
               ackQ := s.rxEndOfData.ackQ, rxData := CodecBuf.empty } := by
  unfold State.rxEndOfData
  dsimp only
  split
  · rw [acceptData_frame]; rfl
  · rfl

/-- An inbound byte leaves the transport, the pending requests and `syncSent` alone. -/
theorem rxByte_frame (s : State) (b : Byte) :
    s.rxByte b = { s.rxByte b with link := s.link, requests := s.requests, syncSent := s.syncSent } := by
  unfold State.rxByte
  dsimp only
  split
  · rw [rxSync_frame]
  · split
    · rfl
    · split
      · rw [rxEndOfAck_frame]; rfl
      · split
        · rfl
        · split
          · rw [rxEndOfData_frame]; rfl
          · rfl

end Sys2Proof.Machine
end

