-- ==== Sys2Proof/Laws/PerInstr.lean ====
section
/-! SUPPORT. Statements about every instruction as syntax. `OpcodeByte`: the first byte of an instruction's encoding is
what spec/opcode_table.json gives its row, under the row's mask. -/

namespace Sys2Proof.Laws.OpcodeByte

/-- The match value of an instruction's row in spec/opcode_table.json. -/
def rowMatch : Instr → Byte
  | .wData _ => 0x80 | .wAck _ => 0x40 | .wSync => 0x2C | .wEoa => 0x01 | .wEod => 0x02 | .wGarbage _ => 0x00
  | .openSlot _ => 0x01 | .closeSlot _ => 0x02 | .send _ _ _ _ => 0x03 | .setrx _ _ => 0x04 | .txsize _ => 0x05
  | .txspace _ => 0x06 | .txflush _ => 0x07 | .task => 0x08 | .getnack => 0x09
  | .encAPush _ _ => 0x10 | .encAPush32 _ _ => 0x11 | .encAEnd _ => 0x12 | .encAFlush _ => 0x13
  | .decAPush _ => 0x14 | .decAFlush => 0x15 | .decodeA _ _ => 0x16
  | .encDPush _ _ => 0x18 | .encDPush32 _ _ => 0x19 | .encDEnd _ => 0x1A | .encDFlush _ => 0x1B
  | .decDPush _ => 0x1C | .decDFlush => 0x1D | .decodeD _ _ => 0x1E
  | .isSync _ => 0x20 | .isEoa _ => 0x21 | .isEod _ => 0x22 | .isAck _ => 0x23 | .isData _ => 0x24
  | .crc32Step _ _ => 0x28 | .getnext _ => 0x30 | .ackx _ => 0x31 | .schedack _ => 0x32 | .sreset => 0x33
  | .syncburst => 0x40 | .rxdrain => 0x41 | .rxbyte _ => 0x42 | .resync => 0x43 | .txstep => 0x44

/-- The mask of an instruction's row in spec/opcode_table.json. -/
def rowMask : Instr → Byte
  | .wData _ => 0x80
  | .wAck _ => 0xC0
  | .wGarbage _ => 0xC0
  | _ => 0xFF

def Statement (i : Instr) : Prop := ∃ b rest, i.toBytes = b :: rest ∧ b &&& rowMask i = rowMatch i

theorem wData (d : BitVec 7) : Statement (.wData d) := ⟨1#1 ++ d, [], rfl, by revert d; decide⟩
theorem wAck (a : BitVec 6) : Statement (.wAck a) := ⟨1#2 ++ a, [], rfl, by revert a; decide⟩
theorem wGarbage (g : BitVec 6) : Statement (.wGarbage g) := ⟨0#2 ++ g, [], rfl, by revert g; decide⟩
theorem wSync : Statement (.wSync) := ⟨_, _, rfl, by simp [rowMask, rowMatch]⟩
theorem wEoa : Statement (.wEoa) := ⟨_, _, rfl, by simp [rowMask, rowMatch]⟩
theorem wEod : Statement (.wEod) := ⟨_, _, rfl, by simp [rowMask, rowMatch]⟩
theorem openSlot (id : Byte) : Statement (.openSlot id) := ⟨_, _, rfl, by simp [rowMask, rowMatch, Op.code]⟩
theorem closeSlot (id : Option Byte) : Statement (.closeSlot id) := ⟨_, _, rfl, by simp [rowMask, rowMatch, Op.code]⟩
theorem send (id : Byte) (len : BitVec 16) (more : Bool) (data : List Byte) : Statement (.send id len more data) := ⟨_, _, rfl, by simp [rowMask, rowMatch, Op.code]⟩
theorem setrx (id : Byte) (rx : RxOperand) : Statement (.setrx id rx) := ⟨_, _, rfl, by simp [rowMask, rowMatch, Op.code]⟩
theorem txsize (id : Byte) : Statement (.txsize id) := ⟨_, _, rfl, by simp [rowMask, rowMatch, Op.code]⟩
theorem txspace (id : Byte) : Statement (.txspace id) := ⟨_, _, rfl, by simp [rowMask, rowMatch, Op.code]⟩
theorem txflush (id : Byte) : Statement (.txflush id) := ⟨_, _, rfl, by simp [rowMask, rowMatch, Op.code]⟩
theorem task : Statement (.task) := ⟨_, _, rfl, by simp [rowMask, rowMatch, Op.code]⟩
theorem getnack : Statement (.getnack) := ⟨_, _, rfl, by simp [rowMask, rowMatch, Op.code]⟩
theorem encAPush (e : Fin 3) (b : Byte) : Statement (.encAPush e b) := ⟨_, _, rfl, by simp [rowMask, rowMatch, Op.code]⟩
theorem encAPush32 (e : Fin 3) (v : Word) : Statement (.encAPush32 e v) := ⟨_, _, rfl, by simp [rowMask, rowMatch, Op.code]⟩
theorem encAEnd (e : Fin 3) : Statement (.encAEnd e) := ⟨_, _, rfl, by simp [rowMask, rowMatch, Op.code]⟩
theorem encAFlush (e : Fin 3) : Statement (.encAFlush e) := ⟨_, _, rfl, by simp [rowMask, rowMatch, Op.code]⟩
theorem decAPush (b : Byte) : Statement (.decAPush b) := ⟨_, _, rfl, by simp [rowMask, rowMatch, Op.code]⟩
theorem decAFlush : Statement (.decAFlush) := ⟨_, _, rfl, by simp [rowMask, rowMatch, Op.code]⟩
theorem decodeA (frame : List Byte) (n : BitVec 16) : Statement (.decodeA frame n) := ⟨_, _, rfl, by simp [rowMask, rowMatch, Op.code]⟩
theorem encDPush (e : Fin 3) (b : Byte) : Statement (.encDPush e b) := ⟨_, _, rfl, by simp [rowMask, rowMatch, Op.code]⟩
theorem encDPush32 (e : Fin 3) (v : Word) : Statement (.encDPush32 e v) := ⟨_, _, rfl, by simp [rowMask, rowMatch, Op.code]⟩
theorem encDEnd (e : Fin 3) : Statement (.encDEnd e) := ⟨_, _, rfl, by simp [rowMask, rowMatch, Op.code]⟩
theorem encDFlush (e : Fin 3) : Statement (.encDFlush e) := ⟨_, _, rfl, by simp [rowMask, rowMatch, Op.code]⟩
theorem decDPush (b : Byte) : Statement (.decDPush b) := ⟨_, _, rfl, by simp [rowMask, rowMatch, Op.code]⟩
theorem decDFlush : Statement (.decDFlush) := ⟨_, _, rfl, by simp [rowMask, rowMatch, Op.code]⟩
theorem decodeD (frame : List Byte) (n : BitVec 16) : Statement (.decodeD frame n) := ⟨_, _, rfl, by simp [rowMask, rowMatch, Op.code]⟩
theorem isSync (b : Byte) : Statement (.isSync b) := ⟨_, _, rfl, by simp [rowMask, rowMatch, Op.code]⟩
theorem isEoa (b : Byte) : Statement (.isEoa b) := ⟨_, _, rfl, by simp [rowMask, rowMatch, Op.code]⟩
theorem isEod (b : Byte) : Statement (.isEod b) := ⟨_, _, rfl, by simp [rowMask, rowMatch, Op.code]⟩
theorem isAck (b : Byte) : Statement (.isAck b) := ⟨_, _, rfl, by simp [rowMask, rowMatch, Op.code]⟩
theorem isData (b : Byte) : Statement (.isData b) := ⟨_, _, rfl, by simp [rowMask, rowMatch, Op.code]⟩
theorem crc32Step (c : Word) (b : Byte) : Statement (.crc32Step c b) := ⟨_, _, rfl, by simp [rowMask, rowMatch, Op.code]⟩
theorem getnext (now : Time) : Statement (.getnext now) := ⟨_, _, rfl, by simp [rowMask, rowMatch, Op.code]⟩
theorem ackx (seq : Byte) : Statement (.ackx seq) := ⟨_, _, rfl, by simp [rowMask, rowMatch, Op.code]⟩
theorem schedack (seq : Byte) : Statement (.schedack seq) := ⟨_, _, rfl, by simp [rowMask, rowMatch, Op.code]⟩
theorem sreset : Statement (.sreset) := ⟨_, _, rfl, by simp [rowMask, rowMatch, Op.code]⟩
theorem syncburst : Statement (.syncburst) := ⟨_, _, rfl, by simp [rowMask, rowMatch, Op.code]⟩
theorem rxdrain : Statement (.rxdrain) := ⟨_, _, rfl, by simp [rowMask, rowMatch, Op.code]⟩
theorem rxbyte (b : Byte) : Statement (.rxbyte b) := ⟨_, _, rfl, by simp [rowMask, rowMatch, Op.code]⟩
theorem resync : Statement (.resync) := ⟨_, _, rfl, by simp [rowMask, rowMatch, Op.code]⟩
theorem txstep : Statement (.txstep) := ⟨_, _, rfl, by simp [rowMask, rowMatch, Op.code]⟩

end Sys2Proof.Laws.OpcodeByte
end

