-- ==== Sys2Proof/Tests/Slice0.lean ====
section
/-! SUPPORT. The model's own tests, each on one step of a small state, with the expected results taken from the spec's
encodings (30_encoding.md) and vectors (95_test_vectors.md); and, for every obligation with hypotheses, a witness that
meets them. Vectors that hang on the spec's illustrative timing values are tested on what does not hang on them. -/

namespace Sys2Proof.Tests

open Sys2Proof.Machine

set_option Elab.async false

/-! ## Well-formedness: what no word encodes is refused -/

theorem test_wf_refuses_sync_as_garbage : (Instr.wGarbage 0x2C).wf = false := by decide
theorem test_wf_refuses_eoa_as_garbage : (Instr.wGarbage 0x01).wf = false := by decide
theorem test_wf_refuses_eod_as_garbage : (Instr.wGarbage 0x02).wf = false := by decide
theorem test_wf_refuses_close_of_none_as_slot : (Instr.closeSlot (some 0xFF)).wf = false := by decide
theorem test_wf_refuses_send_with_short_data : (Instr.send 0 3 false [0x41, 0x42]).wf = false := by decide
theorem test_wf_refuses_send_with_long_data : (Instr.send 0 1 false [0x41, 0x42]).wf = false := by decide
theorem test_wf_refuses_long_frame_decode_a (f : List Byte) (h : f.length = 65536) : (Instr.decodeA f 0).wf = false := by
  simp [Instr.wf, h]
theorem test_wf_refuses_long_frame_decode_d (f : List Byte) (h : f.length = 65536) : (Instr.decodeD f 0).wf = false := by
  simp [Instr.wf, h]

/-! ## Decoding: words written out from R60, R70 and R71 -/

/-- R60 to R66, with the values at the edges of the classes (V-K1 to V-K16). -/
theorem test_decode_wire :
    decode ⟨.wire, [0b10000000]⟩ = .ok (.wData 0) ∧ decode ⟨.wire, [0b11111111]⟩ = .ok (.wData 0x7F) ∧
    decode ⟨.wire, [0b10101100]⟩ = .ok (.wData 0x2C) ∧ decode ⟨.wire, [0b01000000]⟩ = .ok (.wAck 0) ∧
    decode ⟨.wire, [0b01111111]⟩ = .ok (.wAck 0x3F) ∧ decode ⟨.wire, [0b01101100]⟩ = .ok (.wAck 0x2C) ∧
    decode ⟨.wire, [0b00101100]⟩ = .ok .wSync ∧ decode ⟨.wire, [0b00000001]⟩ = .ok .wEoa ∧
    decode ⟨.wire, [0b00000010]⟩ = .ok .wEod ∧ decode ⟨.wire, [0b00000000]⟩ = .ok (.wGarbage 0) ∧
    decode ⟨.wire, [0b00000011]⟩ = .ok (.wGarbage 3) ∧ decode ⟨.wire, [0b00101011]⟩ = .ok (.wGarbage 0x2B) ∧
    decode ⟨.wire, [0b00101101]⟩ = .ok (.wGarbage 0x2D) ∧ decode ⟨.wire, [0b00111111]⟩ = .ok (.wGarbage 0x3F) := by
  decide

/-- The host commands, R70. -/
theorem test_decode_host :
    decode ⟨.host, [0x01, 0x07]⟩ = .ok (.openSlot 7) ∧ decode ⟨.host, [0x02, 0x03]⟩ = .ok (.closeSlot (some 3)) ∧
    decode ⟨.host, [0x02, 0xFF]⟩ = .ok (.closeSlot none) ∧
    decode ⟨.host, [0x03, 0x00, 0x00, 0x03, 0x00, 0x48, 0x69, 0x21]⟩ = .ok (.send 0 3 false [0x48, 0x69, 0x21]) ∧
    decode ⟨.host, [0x03, 0x02, 0x00, 0x00, 0x01]⟩ = .ok (.send 2 0 true []) ∧
    decode ⟨.host, [0x04, 0x05, 0x00]⟩ = .ok (.setrx 5 .none) ∧ decode ⟨.host, [0x05, 0x00]⟩ = .ok (.txsize 0) ∧
    decode ⟨.host, [0x06, 0x08]⟩ = .ok (.txspace 8) ∧ decode ⟨.host, [0x07, 0x00]⟩ = .ok (.txflush 0) ∧
    decode ⟨.host, [0x08]⟩ = .ok .task ∧ decode ⟨.host, [0x09]⟩ = .ok .getnack := by
  decide +kernel

/-- R71: `SETRX` with its enable bit and two tags, for either value of the bit. -/
theorem test_decode_setrx_tags (cb ctx : Tag) (enable : Bool) :
    decode ⟨.host, 0x04 :: 0x05 :: bitByte enable :: (tagToBytes cb ++ tagToBytes ctx)⟩ =
      .ok (.setrx 5 (.tags enable ⟨cb, ctx⟩)) := by
  have h : decodeCmd (0x04 :: 0x05 :: bitByte enable :: (tagToBytes cb ++ tagToBytes ctx)) =
      .ok (.setrx 5 (.tags enable ⟨cb, ctx⟩), []) :=
    Laws.withRx_rxToBytes (.tags enable ⟨cb, ctx⟩) fun rx r => .ok (.setrx 5 rx, r)
  simp only [decode, decodeCmdOn, h]
  rfl

/-- The codec operations, R70. -/
theorem test_decode_codec :
    decode ⟨.test, [0x10, 0x00, 0x05]⟩ = .ok (.encAPush 0 0x05) ∧
    decode ⟨.test, [0x11, 0x01, 0x59, 0xCD, 0xD4, 0xDF]⟩ = .ok (.encAPush32 1 0x59CDD4DF) ∧
    decode ⟨.test, [0x12, 0x02]⟩ = .ok (.encAEnd 2) ∧ decode ⟨.test, [0x13, 0x00]⟩ = .ok (.encAFlush 0) ∧
    decode ⟨.test, [0x14, 0x00, 0x41]⟩ = .ok (.decAPush 0x41) ∧ decode ⟨.test, [0x15, 0x00]⟩ = .ok .decAFlush ∧
    decode ⟨.test, [0x16, 0x00, 0x04, 0x00, 0x02, 0x41, 0x55]⟩ = .ok (.decodeA [0x41, 0x55] 4) ∧
    decode ⟨.test, [0x18, 0x00, 0x41]⟩ = .ok (.encDPush 0 0x41) ∧
    decode ⟨.test, [0x19, 0x02, 0x87, 0x23, 0x10, 0xC0]⟩ = .ok (.encDPush32 2 0x872310C0) ∧
    decode ⟨.test, [0x1A, 0x01]⟩ = .ok (.encDEnd 1) ∧ decode ⟨.test, [0x1B, 0x00]⟩ = .ok (.encDFlush 0) ∧
    decode ⟨.test, [0x1C, 0x00, 0x80]⟩ = .ok (.decDPush 0x80) ∧ decode ⟨.test, [0x1D, 0x00]⟩ = .ok .decDFlush ∧
    decode ⟨.test, [0x1E, 0x01, 0x05, 0x00, 0x01, 0x80]⟩ = .ok (.decodeD [0x80] 0x0105) := by
  decide +kernel

/-- The classifiers and the CRC step, R70. -/
theorem test_decode_classifiers :
    decode ⟨.test, [0x20, 0x2C]⟩ = .ok (.isSync 0x2C) ∧ decode ⟨.test, [0x21, 0x01]⟩ = .ok (.isEoa 0x01) ∧
    decode ⟨.test, [0x22, 0x02]⟩ = .ok (.isEod 0x02) ∧ decode ⟨.test, [0x23, 0x55]⟩ = .ok (.isAck 0x55) ∧
    decode ⟨.test, [0x24, 0x80]⟩ = .ok (.isData 0x80) ∧
    decode ⟨.test, [0x28, 0x4E, 0x08, 0xBF, 0xB4, 0x4E]⟩ = .ok (.crc32Step 0x4E08BFB4 0x4E) := by
  decide +kernel

/-- The scheduler operations and the engine's steps, R70. -/
theorem test_decode_scheduler_engine :
    decode ⟨.test, [0x30, 0x00, 0x00, 0x04, 0x4D]⟩ = .ok (.getnext 1101) ∧
    decode ⟨.test, [0x31, 0x00]⟩ = .ok (.ackx 0) ∧ decode ⟨.test, [0x32, 0x07]⟩ = .ok (.schedack 7) ∧
    decode ⟨.test, [0x33]⟩ = .ok .sreset ∧ decode ⟨.test, [0x40]⟩ = .ok .syncburst ∧
    decode ⟨.test, [0x41]⟩ = .ok .rxdrain ∧ decode ⟨.test, [0x42, 0x3F]⟩ = .ok (.rxbyte 0x3F) ∧
    decode ⟨.test, [0x43]⟩ = .ok .resync ∧ decode ⟨.test, [0x44]⟩ = .ok .txstep := by
  decide +kernel

/-- R73, R13: what is rejected, by name. -/
theorem test_decode_rejects :
    decode ⟨.host, [0x00]⟩ = .error (.reservedCode 0x00) ∧ decode ⟨.host, [0x0A]⟩ = .error (.reservedCode 0x0A) ∧
    decode ⟨.host, [0x45]⟩ = .error (.reservedCode 0x45) ∧ decode ⟨.host, [0x33]⟩ = .error .internalCode ∧
    decode ⟨.test, [0x08]⟩ = .error .hostCode ∧ decode ⟨.host, []⟩ = .error .empty ∧
    decode ⟨.host, [0x01]⟩ = .error .truncated ∧ decode ⟨.host, [0x08, 0x00]⟩ = .error .trailing ∧
    decode ⟨.host, [0x04, 0x00, 0x02]⟩ = .error .notABit ∧
    decode ⟨.test, [0x12, 0x03]⟩ = .error .noSuchBuffer ∧ decode ⟨.test, [0x15, 0x01]⟩ = .error .noSuchBuffer ∧
    decode ⟨.wire, [0x80, 0x80]⟩ = .error .trailing := by
  decide +kernel

/-- The words of the opcode table: bit 0 is the least significant bit of the first byte. -/
theorem test_decode_table_word :
    decodeTableWord 8 0x80 = some (.wData 0) ∧ decodeTableWord 8 0x2C = some .wSync ∧
    decodeTableWord 8 0x00 = some (.wGarbage 0) ∧ decodeTableWord 8 0x08 = some .task ∧
    decodeTableWord 8 0x01 = some (.openSlot 0) ∧ decodeTableWord 8 0x1E = some (.decodeD [] 0) ∧
    decodeTableWord 8 0x04 = some (.setrx 0 .none) ∧ decodeTableWord 16 0x0701 = some (.openSlot 7) := by
  decide +kernel

/-! ## Small states -/

/-- What a next state satisfies; false on a stop. -/
def onNext (o : Host.Outcome State Fault Refusal) (p : State → Bool) : Bool :=
  match o with
  | .next t => p t
  | .fault _ => false
  | .refused _ => false

/-- The machine stops because a drain does not end. -/
def stuck (o : Host.Outcome State Fault Refusal) : Bool :=
  match o with
  | .next _ => false
  | .fault .drainNeverEnds => true
  | .refused _ => false

/-- Reset, with one channel in slot `id`. -/
def withChannel (id : Nat) (q : List Byte) (more : Bool) (rx : Option Receiver) : State :=
  State.reset.setChannel id (some ⟨q, more, rx⟩)

/-- A receiver. -/
def someRx : Receiver := ⟨0, 0⟩

/-- `s` with an ACK encode buffer in slot 0, a DATA encode buffer in slot 0, and the two decode buffers. -/
def withBuffers (ea ed da dd : CodecBuf) : State :=
  { (State.reset.setAckFrame 0 ea).setWinFrame 0 ed with rxAck := da, rxData := dd }

/-- `s` with one data frame in flight, number `q`, and its deadline; the next number follows. -/
def withFlight (s : State) (q : Byte) (deadline : Time) : State :=
  { s with
    win := { slots := #v[⟨builtData q 0 [0x41], deadline, 0⟩, WinEntry.reset, WinEntry.reset], len := 1 }
    nextSeq := q + 1 }

/-- `s` with the ACK frame for `q` queued. -/
def withAck (s : State) (q : Byte) : State :=
  { s with ackQ := { slots := #v[builtAck q, CodecBuf.empty, CodecBuf.empty], len := 1 } }

/-- `s` Synchronized, with the transport's next answers: the inbound bytes, what it accepts, its level, its time. -/
def linked (s : State) (rx : List (List Byte)) (accepts levels : List Nat) (clock : List Time) : State :=
  { s with
    syncSent := true
    link := { rx := rx, rxEndless := false, accepts := accepts, levels := levels, clock := clock, asked := 0, tx := [] } }

/-- `s` with a buffer in `rxData`: the bytes of a decoded frame. -/
def withRxData (s : State) (D : CodecBuf) : State := { s with rxData := D }

/-- The frame of V-E1: number 0, channel 0, payload 0x41. -/
def frame41 : List Byte := [0x80, 0x80, 0x88, 0x98, 0xB9, 0x8C, 0xA1, 0xC0, 0x02]

/-- The ACK frame for number 0 (V-A3). -/
def ack0 : List Byte := [0x40, 0x44, 0x78, 0x48, 0x6F, 0x7B, 0x50, 0x01]

/-! ## The codec -/

/-- V-CRC10, V-CRC12. -/
theorem test_crc :
    crcOver 0xFFFFFFFF [0x31, 0x32, 0x33, 0x34, 0x35, 0x36, 0x37, 0x38, 0x39] = 0x0376E6E7 ∧
    crcOver 0xFFFFFFFF [0x00, 0x00, 0x41, 0x87, 0x23, 0x10, 0xC0] = 0 := by decide +kernel

/-- V-CRC8, V-CRC6. -/
theorem test_crc32Step :
    onNext (exec (.crc32Step 0x4E08BFB4 0x4E) State.reset) (fun t => t.answers == [⟨.ok, .num 0x08BFB400⟩]) ∧
    onNext (exec (.crc32Step 0 0x80) State.reset) (fun t => t.answers == [⟨.ok, .num 0x690CE0EE⟩]) := by
  decide +kernel

/-- V-K1, V-K11. -/
theorem test_isSync :
    onNext (exec (.isSync 0x2C) State.reset) (fun t => t.answers == [⟨.ok, .bool true⟩]) ∧
    onNext (exec (.isSync 0x2D) State.reset) (fun t => t.answers == [⟨.ok, .bool false⟩]) := by decide +kernel

/-- V-K2, V-K15. -/
theorem test_isEoa :
    onNext (exec (.isEoa 0x01) State.reset) (fun t => t.answers == [⟨.ok, .bool true⟩]) ∧
    onNext (exec (.isEoa 0x41) State.reset) (fun t => t.answers == [⟨.ok, .bool false⟩]) := by decide +kernel

/-- V-K3, V-K16. -/
theorem test_isEod :
    onNext (exec (.isEod 0x02) State.reset) (fun t => t.answers == [⟨.ok, .bool true⟩]) ∧
    onNext (exec (.isEod 0x82) State.reset) (fun t => t.answers == [⟨.ok, .bool false⟩]) := by decide +kernel

/-- V-K5, V-K6. -/
theorem test_isAck :
    onNext (exec (.isAck 0x7F) State.reset) (fun t => t.answers == [⟨.ok, .bool true⟩]) ∧
    onNext (exec (.isAck 0x80) State.reset) (fun t => t.answers == [⟨.ok, .bool false⟩]) := by decide +kernel

/-- V-K5, V-K6. -/
theorem test_isData :
    onNext (exec (.isData 0x80) State.reset) (fun t => t.answers == [⟨.ok, .bool true⟩]) ∧
    onNext (exec (.isData 0x7F) State.reset) (fun t => t.answers == [⟨.ok, .bool false⟩]) := by decide +kernel

/-- V-A1, the first push and the third. -/
theorem test_encAPush :
    onNext (exec (.encAPush 0 0x05) State.reset)
      (fun t => t.ackFrame 0 == ⟨[0x41, 0x50], 1, 1, 0x59CDD4DF⟩ && t.ackFrame 1 == CodecBuf.empty) ∧
    onNext (exec (.encAPush 0 0xCD) (State.reset.setAckFrame 0 ⟨[0x41, 0x55, 0x64], 2, 2, 0xCDD4DF00⟩))
      (fun t => t.ackFrame 0 == ⟨[0x41, 0x55, 0x67, 0x4D], 4, 0, 0xD4DF0000⟩) := by decide +kernel

/-- V-A1; V-A5: after 10 pushes the first two bytes go in, the last two are refused, nothing is rolled back. -/
theorem test_encAPush32 :
    onNext (exec (.encAPush32 0 0x59CDD4DF) (State.reset.setAckFrame 0 ⟨[0x41, 0x50], 1, 1, 0x59CDD4DF⟩))
      (fun t => t.ackFrame 0 == ⟨[0x41, 0x55, 0x67, 0x4D, 0x75, 0x4D, 0x7C], 6, 2, 0⟩ &&
        t.answers == [⟨.ok, .bool true⟩]) ∧
    onNext (exec (.encAPush32 0 0x11223344) (State.reset.setAckFrame 0 ⟨List.replicate 14 0x40, 13, 1, 0⟩))
      (fun t => (t.ackFrame 0).count == 16 && (t.ackFrame 0).step == 0 && t.answers == [⟨.fail, .bool false⟩]) := by
  decide +kernel

/-- V-A1; V-A5: at `count` 16 there is no room. -/
theorem test_encAEnd :
    onNext (exec (.encAEnd 0) (State.reset.setAckFrame 0 ⟨[0x41, 0x55, 0x67, 0x4D, 0x75, 0x4D, 0x7C], 6, 2, 0⟩))
      (fun t => t.ackFrame 0 == ⟨[0x41, 0x55, 0x67, 0x4D, 0x75, 0x4D, 0x7C, 0x01], 8, 0, 0⟩) ∧
    onNext (exec (.encAEnd 0) (State.reset.setAckFrame 0 ⟨List.replicate 16 0x40, 16, 0, 0⟩))
      (fun t => (t.ackFrame 0).count == 16 && t.answers == [⟨.fail, .bool false⟩]) := by decide +kernel

/-- R88. -/
theorem test_encAFlush :
    onNext (exec (.encAFlush 0) (State.reset.setAckFrame 0 ⟨[0x41, 0x50], 1, 1, 0x59CDD4DF⟩))
      (fun t => t.ackFrame 0 == CodecBuf.empty) := by decide +kernel

/-- V-D1, the third push; V-D2, the seventh. -/
theorem test_encDPush :
    onNext (exec (.encDPush 0 0x41) (State.reset.setWinFrame 0 ⟨[0x80, 0x80, 0x80], 2, 2, 0x00B7647D⟩))
      (fun t => t.winFrame 0 == ⟨[0x80, 0x80, 0x88, 0x90], 3, 3, 0x872310C0⟩) ∧
    onNext (exec (.encDPush 1 0x00)
        (State.reset.setWinFrame 1 ⟨[0xC0, 0x80, 0xA0, 0xA2, 0xE2, 0x81, 0xFE], 6, 6, 0xC1A94327⟩))
      (fun t => t.winFrame 1 == ⟨[0xC0, 0x80, 0xA0, 0xA2, 0xE2, 0x81, 0xFE, 0x80], 8, 0, 0xF008AA2E⟩) := by
  decide +kernel

/-- V-D1. -/
theorem test_encDPush32 :
    onNext (exec (.encDPush32 0 0x872310C0) (State.reset.setWinFrame 0 ⟨[0x80, 0x80, 0x88, 0x90], 3, 3, 0x872310C0⟩))
      (fun t => t.winFrame 0 == ⟨[0x80, 0x80, 0x88, 0x98, 0xB9, 0x8C, 0xA1, 0xC0], 8, 0, 0⟩) := by decide +kernel

/-- V-D1. -/
theorem test_encDEnd :
    onNext (exec (.encDEnd 0) (State.reset.setWinFrame 0 ⟨[0x80, 0x80, 0x88, 0x98, 0xB9, 0x8C, 0xA1, 0xC0], 8, 0, 0⟩))
      (fun t => t.winFrame 0 == ⟨frame41, 9, 0, 0⟩) := by decide +kernel

/-- R89. -/
theorem test_encDFlush :
    onNext (exec (.encDFlush 2) (State.reset.setWinFrame 2 ⟨frame41, 9, 0, 0⟩))
      (fun t => t.winFrame 2 == CodecBuf.empty) := by decide +kernel

/-- V-X1, the third push and the fourth. -/
theorem test_decAPush :
    onNext (exec (.decAPush 0x67) { State.reset with rxAck := ⟨[0x05, 0x50], 1, 2, 0x59CDD4DF⟩ })
      (fun t => t.rxAck == ⟨[0x05, 0x59, 0xC0], 2, 3, 0xCDD4DF00⟩) ∧
    onNext (exec (.decAPush 0x4D) { State.reset with rxAck := ⟨[0x05, 0x59, 0xC0], 2, 3, 0xCDD4DF00⟩ })
      (fun t => t.rxAck == ⟨[0x05, 0x59, 0xCD], 3, 0, 0xD4DF0000⟩) := by decide +kernel

/-- V-X5. -/
theorem test_decAFlush :
    onNext (exec .decAFlush { State.reset with rxAck := ⟨[0x05, 0x50], 1, 2, 0x59CDD4DF⟩ })
      (fun t => t.rxAck == CodecBuf.empty) := by decide +kernel

/-- V-X2, the last push; V-X3: the tag is not checked. -/
theorem test_decDPush :
    onNext (exec (.decDPush 0xC0) (withRxData State.reset ⟨[0x00, 0x00, 0x41, 0x87, 0x23, 0x10, 0x80], 6, 7, 0xC0000000⟩))
      (fun t => t.rxData == ⟨[0x00, 0x00, 0x41, 0x87, 0x23, 0x10, 0xC0], 7, 0, 0⟩) ∧
    onNext (exec (.decDPush 0x41) State.reset) (fun t => t.rxData == ⟨[0x82], 0, 1, 0xFFFFFFFF⟩) := by decide +kernel

/-- R93. -/
theorem test_decDFlush :
    onNext (exec .decDFlush (withRxData State.reset ⟨[0x82], 0, 1, 0xFFFFFFFF⟩))
      (fun t => t.rxData == CodecBuf.empty) := by decide +kernel

/-- V-N1. -/
theorem test_decodeA :
    onNext (exec (.decodeA [0x41, 0x55, 0x67, 0x4D, 0x75, 0x4D, 0x7C, 0x01] 4) State.reset)
      (fun t => t.answers == [⟨.ok, .num 0xDF⟩]) ∧
    onNext (exec (.decodeA [0x41, 0x55, 0x67, 0x4D, 0x75, 0x4D, 0x7C, 0x01] 5) State.reset)
      (fun t => t.answers == [⟨.refused, .none⟩]) := by decide +kernel

/-- V-N2: index 6 at `s` = 6, index 7 in the second super-group. -/
theorem test_decodeD :
    onNext (exec (.decodeD [0x80, 0xC0, 0xE9, 0x86, 0xC9, 0x86, 0xE7, 0xD2, 0xAC, 0x8D, 0x80, 0x02] 6) State.reset)
      (fun t => t.answers == [⟨.ok, .num 0xD2⟩]) ∧
    onNext (exec (.decodeD [0x80, 0xC0, 0xE9, 0x86, 0xC9, 0x86, 0xE7, 0xD2, 0xAC, 0x8D, 0x80, 0x02] 7) State.reset)
      (fun t => t.answers == [⟨.ok, .num 0x58⟩]) := by decide +kernel

/-- V-A3, V-D4: whole frames. -/
theorem test_built_frames :
    (builtAck 0x05).complete = [0x41, 0x55, 0x67, 0x4D, 0x75, 0x4D, 0x7C, 0x01] ∧
    (builtAck 0x80).complete = [0x60, 0x42, 0x5C, 0x44, 0x57, 0x75, 0x68, 0x01] ∧
    (builtData 0 0 [0x41]).complete = frame41 ∧
    (builtData 0xFF 7 [0xFF, 0xFF, 0xFF, 0xFF, 0xFF, 0xFF, 0xFF]).complete =
      [0xFF, 0xC1, 0xFF, 0xFF, 0xFF, 0xFF, 0xFF, 0xFF, 0xFF, 0xFF, 0xE2, 0xF2, 0x99, 0x8A, 0x9A, 0x02] := by
  decide +kernel

/-! ## The channels -/

/-- V-C4. -/
theorem test_openSlot :
    onNext (exec (.openSlot 7) State.reset) (fun t => t.occupied 7 && t.answers == [⟨.ok, .none⟩]) ∧
    onNext (exec (.openSlot 8) State.reset) (fun t => t.answers == [⟨.fail, .none⟩]) := by decide +kernel

/-- V-C4. -/
theorem test_closeSlot :
    onNext (exec (.closeSlot (some 3)) (withChannel 3 [0x41] false none))
      (fun t => !t.occupied 3 && t.answers == [⟨.ok, .none⟩]) ∧
    onNext (exec (.closeSlot (some 3)) State.reset) (fun t => t.answers == [⟨.refused, .none⟩]) := by decide +kernel

/-- V-C1, V-C2: a full queue takes nothing and `more` is recorded; a send of nothing records `more`. -/
theorem test_send :
    onNext (exec (.send 0 1 true [0x41]) (withChannel 0 (List.replicate 1024 0) false none))
      (fun t => t.answers == [⟨.ok, .num 0⟩] && (t.channel 0).any (fun c => c.more && c.q.length == 1024)) ∧
    onNext (exec (.send 0 0 false []) (withChannel 0 [0x41] true none))
      (fun t => t.answers == [⟨.ok, .num 0⟩] && (t.channel 0).any (fun c => !c.more && c.q == [0x41])) := by
  decide +kernel

/-- V-C3; R111: with a null callback the context is ignored. -/
theorem test_setrx :
    onNext (exec (.setrx 0 (.tags false someRx)) (withChannel 0 [] false (some someRx)))
      (fun t => (t.receiver 0).isNone && t.answers == [⟨.ok, .none⟩]) ∧
    onNext (exec (.setrx 0 (.tags true someRx)) (withChannel 0 [] false none)) (fun t => (t.receiver 0).isSome) := by
  decide +kernel

/-- V-C1. -/
theorem test_txsize :
    onNext (exec (.txsize 0) (withChannel 0 [] false none)) (fun t => t.answers == [⟨.ok, .num 1024⟩]) := by
  decide +kernel

/-- V-C1, V-C3. -/
theorem test_txspace :
    onNext (exec (.txspace 0) (withChannel 0 (List.replicate 1000 0) false none))
      (fun t => t.answers == [⟨.ok, .num 24⟩]) ∧
    onNext (exec (.txspace 8) State.reset) (fun t => t.answers == [⟨.refused, .none⟩]) := by decide +kernel

/-- V-C1: `more` stays. -/
theorem test_txflush :
    onNext (exec (.txflush 0) (withChannel 0 [0x41] true none))
      (fun t => (t.channel 0).any (fun c => c.q == [] && c.more)) := by decide +kernel

/-! ## The scheduler -/

/-- V-S3. -/
theorem test_timedOut :
    timedOut 0x10 0x10 = true ∧ timedOut 0x0F 0x10 = false ∧ timedOut 0xFFFFFFF0 0x10 = false ∧
    timedOut 0x05 0xFFFFFFF0 = true ∧ timedOut 0x8000000F 0x10 = true ∧ timedOut 0x80000010 0x10 = false := by
  decide +kernel

/-- V-S1 and V-S4: the frame returned, without its deadline. -/
theorem test_getnext_new :
    onNext (exec (.getnext 1000) (withChannel 0 [0x41] false none))
      (fun t => t.answers == [⟨.ok, .frame ⟨.data, frame41⟩⟩] && t.nextSeq == 1 && t.win.len == 1) ∧
    onNext (exec (.getnext 0)
        ((withChannel 0 (List.replicate 10 0) true none).setChannel 2 (some ⟨[0x58, 0x59, 0x5A], false, none⟩)))
      (fun t => t.answers == [⟨.ok, .frame ⟨.data,
        [0x80, 0x80, 0xCB, 0x85, 0xCA, 0xEB, 0x80, 0xB5, 0x8B, 0xB3, 0xA0, 0x02]⟩⟩]) := by decide +kernel

/-- V-S2: not due, due. -/
theorem test_getnext_retransmit :
    onNext (exec (.getnext 1100) (withFlight State.reset 0 1101))
      (fun t => t.answers == [⟨.fail, .none⟩] && t.nackCount == 0) ∧
    onNext (exec (.getnext 1101) (withFlight State.reset 0 1101))
      (fun t => t.answers == [⟨.ok, .frame ⟨.data, frame41⟩⟩] && t.nackCount == 1) := by decide +kernel

/-- V-S7. -/
theorem test_ackx :
    onNext (exec (.ackx 1) (withFlight State.reset 0 0)) (fun t => t.win.len == 1 && t.answers == [⟨.fail, .bool false⟩]) ∧
    onNext (exec (.ackx 0) (withFlight State.reset 0 0)) (fun t => t.win.len == 0 && t.answers == [⟨.ok, .bool true⟩]) := by
  decide +kernel

/-- V-S8: the queue takes three. -/
theorem test_schedack :
    onNext (exec (.schedack 5) State.reset)
      (fun t => t.ackQ.len == 1 && (t.ackFrame 0).complete == [0x41, 0x55, 0x67, 0x4D, 0x75, 0x4D, 0x7C, 0x01]) ∧
    onNext (exec (.schedack 3) { State.reset with ackQ := { State.reset.ackQ with len := 3 } })
      (fun t => t.ackQ.len == 3 && t.answers == [⟨.fail, .bool false⟩]) := by decide +kernel

/-- V-S10. -/
theorem test_sreset :
    onNext (exec .sreset { withAck (withFlight (withChannel 0 [0x42] false none) 8 0) 1 with nackCount := 4 })
      (fun t => t.win.len == 0 && t.ackQ.len == 0 && t.nackCount == 0 && t.nextSeq == 0 &&
        (t.channel 0).any (fun c => c.q == [0x42])) := by decide +kernel

/-- V-S11. -/
theorem test_getnack :
    onNext (exec .getnack { State.reset with nackCount := 2 }) (fun t => t.answers == [⟨.ok, .num 2⟩]) := by decide +kernel

/-! ## The engine: inbound bytes -/

/-- R146: on a flushed decoder. -/
theorem test_wData :
    onNext (exec (.wData 0) { State.reset with syncCount := 2 })
      (fun t => t.rxData == ⟨[0x00], 0, 1, 0xFFFFFFFF⟩ && t.syncCount == 0) := by decide +kernel

/-- R143: on a flushed decoder. -/
theorem test_wAck :
    onNext (exec (.wAck 1) { State.reset with syncCount := 1 })
      (fun t => t.rxAck == ⟨[0x04], 0, 1, 0xFFFFFFFF⟩ && t.syncCount == 0) := by decide +kernel

/-- R141, V-E16: two do nothing, the third resynchronises. -/
theorem test_wSync :
    onNext (exec .wSync { State.reset with nackCount := 4, expectedSeq := 3, syncCount := 1 })
      (fun t => t.syncCount == 2 && t.nackCount == 4 && t.expectedSeq == 3) ∧
    onNext (exec .wSync { State.reset with nackCount := 4, expectedSeq := 3, syncCount := 2 })
      (fun t => t.syncCount == 0 && t.nackCount == 0 && t.expectedSeq == 0) := by decide +kernel

/-- V-E11 (the ACK of the oldest frame), V-E12 (a frame of six bytes). -/
theorem test_wEoa :
    onNext (exec .wEoa { withFlight State.reset 0 0 with rxAck := ⟨[0x00, 0x4E, 0x08, 0xBF, 0xB4, 0x00], 5, 3, 0⟩ })
      (fun t => t.win.len == 0 && t.rxAck == CodecBuf.empty) ∧
    onNext (exec .wEoa { withFlight State.reset 0 0 with rxAck := ⟨[0x00, 0x00, 0, 0, 0, 0], 6, 0, 0⟩ })
      (fun t => t.win.len == 1 && t.rxAck == CodecBuf.empty) := by decide +kernel

/-- V-E1 (delivery), V-E6 (an empty payload is discarded). -/
theorem test_wEod :
    onNext (exec .wEod (withRxData (withChannel 0 [] false (some someRx)) ⟨[0, 0, 0x41, 0x87, 0x23, 0x10, 0xC0], 7, 0, 0⟩))
      (fun t => t.delivered.map (fun d => (d.ch, d.payload)) == [(0, [0x41])] && t.expectedSeq == 1 &&
        t.ackQ.len == 1 && (t.ackFrame 0).complete == ack0 && t.rxData == CodecBuf.empty) ∧
    onNext (exec .wEod (withRxData (withChannel 0 [] false (some someRx)) ⟨[0, 0, 0x00, 0xB7, 0x64, 0x7D, 0], 6, 7, 0⟩))
      (fun t => t.delivered.length == 0 && t.expectedSeq == 0 && t.ackQ.len == 0) := by decide +kernel

/-- V-E9 (channel 9: acknowledged, dropped, the number advances), V-E7 (out of sequence). -/
theorem test_wEod_undeliverable :
    onNext (exec .wEod (withRxData State.reset ⟨[0, 9, 0x41, 0, 0, 0, 0], 7, 0, 0⟩))
      (fun t => t.delivered.length == 0 && t.expectedSeq == 1 && t.ackQ.len == 1) ∧
    onNext (exec .wEod (withRxData (withChannel 0 [] false (some someRx)) ⟨[1, 0, 0x41, 0, 0, 0, 0], 7, 0, 0⟩))
      (fun t => t.delivered.length == 0 && t.expectedSeq == 0 && t.ackQ.len == 1) := by decide +kernel

/-- R147, V-E20. -/
theorem test_wGarbage :
    onNext (exec (.wGarbage 0x3F) { State.reset with syncCount := 2, rxAck := ⟨[0x04], 0, 1, 0xFFFFFFFF⟩ })
      (fun t => t.syncCount == 0 && t.rxAck == ⟨[0x04], 0, 1, 0xFFFFFFFF⟩) := by decide +kernel

/-- V-E20, R140. -/
theorem test_rxbyte :
    onNext (exec (.rxbyte 0x00) { State.reset with syncCount := 2 }) (fun t => t.syncCount == 0) ∧
    onNext (exec (.rxbyte 0x2C) { State.reset with syncCount := 1 }) (fun t => t.syncCount == 2) := by decide +kernel

/-- V-E16: a burst of five gives one Resync. -/
theorem test_rxdrain :
    onNext (exec .rxdrain (linked { State.reset with nackCount := 4 } [[0x2C, 0x2C], [0x2C, 0x2C, 0x2C], [], [0x00]] [] [] []))
      (fun t => t.syncCount == 2 && t.nackCount == 0 && t.link.rx == [[0x00]]) ∧
    stuck (exec .rxdrain { State.reset with link := { Link.reset with rxEndless := true } }) := by decide +kernel

/-- R142. -/
theorem test_resync :
    onNext (exec .resync { withFlight State.reset 3 0 with expectedSeq := 7, syncSent := true, rxData := ⟨[0x82], 0, 1, 0⟩ })
      (fun t => t.expectedSeq == 0 && t.syncSent && t.win.len == 0 && t.nextSeq == 0 && t.rxData == CodecBuf.empty) := by
  decide +kernel

/-- P5: a send nested in the delivery, and a `TASK`, which is refused there. -/
theorem test_nested_send :
    onNext (exec (.rxbyte 0x02) { withRxData (withChannel 0 [] false (some someRx)) ⟨[0, 0, 0x68, 0x69, 0, 0, 0, 0], 8, 1, 0⟩ with
        nested := [[[0x03, 0x00, 0x00, 0x02, 0x00, 0x48, 0x49], [0x08]]] })
      (fun t => t.delivered.map (fun d => d.payload) == [[0x68, 0x69]] && t.expectedSeq == 1 &&
        t.answers == [⟨.ok, .num 2⟩, ⟨.refused, .none⟩, ⟨.ok, .none⟩] && (t.channel 0).any (fun c => c.q == [0x48, 0x49])) := by
  decide +kernel

/-! ## The engine: `TASK` -/

/-- V-E18: three bytes accepted, then five. -/
theorem test_syncburst :
    onNext (exec .syncburst { State.reset with link := { Link.reset with accepts := [3] } })
      (fun t => !t.syncSent && t.link.tx == [0x2C, 0x2C, 0x2C]) ∧
    onNext (exec .syncburst { State.reset with link := { Link.reset with accepts := [5] }, expectedSeq := 9 })
      (fun t => t.syncSent && t.link.tx == [0x2C, 0x2C, 0x2C, 0x2C, 0x2C] && t.expectedSeq == 0) := by decide +kernel

/-- V-E17: above the mark the scheduler is not asked; at the mark it is. -/
theorem test_txstep :
    onNext (exec .txstep (linked (withChannel 0 [0x5A] false none) [] [100] [25] [5001]))
      (fun t => t.nextSeq == 0 && t.link.tx == [] && t.link.clock == [5001]) ∧
    onNext (exec .txstep (linked (withChannel 0 [0x5A] false none) [] [100] [24] [5001]))
      (fun t => t.nextSeq == 1 && t.link.tx == [0x80, 0x80, 0x8B, 0xAE, 0x83, 0xE4, 0x81, 0xD1, 0x02]) := by
  decide +kernel

/-- V-E1, V-E18. -/
theorem test_task :
    onNext (exec .task (linked (withChannel 0 [] false (some someRx)) [frame41] [100] [0] [5001]))
      (fun t => t.link.tx == ack0 && t.expectedSeq == 1 && t.delivered.map (fun d => (d.ch, d.payload)) == [(0, [0x41])]) ∧
    onNext (exec .task { State.reset with link := { Link.reset with rx := [frame41], accepts := [3] } })
      (fun t => !t.syncSent && t.link.rx == [frame41] && t.link.levels == []) := by decide +kernel

/-! ## Steps -/

/-- The instruction of a table word runs as the first after reset; an internal code on the command port does not. -/
theorem test_step :
    onNext (step (State.reset.withFetchWord 8 0x33)) (fun t => t.answers == [⟨.ok, .none⟩] && t.requests.isEmpty) ∧
    onNext (step { State.reset with requests := [⟨.host, [0x33]⟩] }) (fun t => t.answers == [⟨.refused, .none⟩]) := by
  decide +kernel

/-! ## Witnesses: for every obligation with hypotheses, concrete values that meet them all -/

theorem witness_DecodeOfEncodeGivesInstr :
    (Instr.closeSlot (some 0xFE)).wf ∧ (Instr.closeSlot none).wf ∧ (Instr.wGarbage 0x3F).wf ∧
    (Instr.send 0xFF 2 true [0x41, 0x42]).wf ∧ (Instr.send 0 0 false []).wf ∧ (Instr.decodeA [0x41] 0xFFFF).wf ∧
    (Instr.decodeD [0x80, 0x02] 0).wf ∧ (Instr.setrx 0 (.tags false someRx)).wf := by
  decide

theorem witness_EncodeOfDecodeGivesRequest :
    decode ⟨.host, [0x02, 0xFF]⟩ = .ok (.closeSlot none) ∧
    decode ⟨.test, [0x1E, 0x00, 0x00, 0x00, 0x01, 0x80]⟩ = .ok (.decodeD [0x80] 0) := by decide +kernel

theorem witness_ReservedAndInternalCodesRefused :
    ({ State.reset with requests := [⟨.host, [0x00]⟩] }).requests = ⟨.host, [0x00]⟩ :: [] ∧
    Op.ofCode 0x00 = none ∧ Op.ofCode 0x0A = none ∧ Op.ofCode 0x0F = none ∧ Op.ofCode 0x17 = none ∧
    Op.ofCode 0x1F = none ∧ Op.ofCode 0x25 = none ∧ Op.ofCode 0x27 = none ∧ Op.ofCode 0x29 = none ∧
    Op.ofCode 0x2F = none ∧ Op.ofCode 0x34 = none ∧ Op.ofCode 0x3F = none ∧ Op.ofCode 0x45 = none ∧
    Op.ofCode 0xFF = none ∧ 0x10 ≤ (0x10#8).toNat := by decide

theorem witness_StepRunsDecodedRequest :
    ({ State.reset with requests := [⟨.host, [0x08]⟩] }).requests = ⟨.host, [0x08]⟩ :: [] ∧
    decode ⟨.host, [0x08]⟩ = .ok .task ∧ decode ⟨.wire, [0x2C]⟩ = .ok .wSync ∧ decode ⟨.test, [0x43]⟩ = .ok .resync ∧
    decode ⟨.host, [0x43]⟩ = .error .internalCode ∧ decode ⟨.wire, []⟩ = .error .empty ∧
    State.reset.requests = [] := by decide +kernel

/-- A state whose drain does not end. -/
def endless : State :=
  { State.reset with syncSent := true, requests := [⟨.test, [0x41]⟩]
                     link := { Link.reset with rx := [[0x00]], rxEndless := true } }

theorem witness_OnlyAnEndlessDrainStops :
    State.reset.link.rxEndless = false ∧ stuck (step endless) ∧ endless.link.rxEndless = true ∧
    [] ∉ endless.link.rx ∧ endless.syncSent = true := by decide +kernel

/-- Reset, with `OPEN 0` pending. -/
def opening : State := { State.reset with requests := [⟨.host, [0x01, 0x00]⟩] }

theorem witness_EveryStepKeepsTheInvariant : opening.Inv where
  rxAck := ⟨by decide, by decide, by decide⟩
  rxData := ⟨by decide, by decide, by decide⟩
  ackSlots := fun i => by
    fin_cases i <;> exact ⟨by decide +kernel, by decide +kernel, by decide +kernel⟩
  winSlots := fun i => by
    fin_cases i <;> exact ⟨by decide +kernel, by decide +kernel, by decide +kernel⟩
  ackLen := by decide
  winLen := by decide
  queues := fun id c h => by
    have : opening.channel id = none := by
      simp only [State.channel, opening, State.reset]
      by_cases hid : id < 8 <;> simp [hid]
    simp [this] at h
  syncCount := by decide

theorem witness_EveryStepKeepsTheInvariant_step : onNext (step opening) (fun t => t.occupied 0) := by decide +kernel

/-- One data frame in flight, one ACK queued, one command pending: the frames are in order. -/
def framed : State := { withAck (withFlight State.reset 0xFF 0) 0 with requests := [⟨.wire, [0x2C]⟩] }

theorem witness_EveryStepKeepsTheFrames :
    framed.FramesOk ∧ framed.offTestPort ∧ onNext (step framed) (fun t => t.syncCount == 1) := by
  refine ⟨⟨fun i hi => ?_, fun i hi => ?_⟩, ?_, by decide +kernel⟩
  · obtain rfl : i = 0 := by simp [framed, withAck] at hi; exact hi
    exact ⟨0, rfl⟩
  · obtain rfl : i = 0 := by simp [framed, withAck, withFlight] at hi; exact hi
    exact ⟨0, [0x41], by decide, by decide, by decide, rfl⟩
  · intro r hr
    simp [framed] at hr
    subst hr
    decide

/-- The same state keeps the invariants, so the hypotheses of the frames' statement are met together. -/
theorem witness_EveryStepKeepsTheFrames_inv : framed.Inv where
  rxAck := ⟨by decide, by decide, by decide⟩
  rxData := ⟨by decide, by decide, by decide⟩
  ackSlots := fun i => by
    fin_cases i <;> exact ⟨by decide +kernel, by decide +kernel, by decide +kernel⟩
  winSlots := fun i => by
    fin_cases i <;> exact ⟨by decide +kernel, by decide +kernel, by decide +kernel⟩
  ackLen := by decide
  winLen := by decide
  queues := fun id c h => by
    have : framed.channel id = none := by
      simp only [State.channel, framed, withAck, withFlight, State.reset]
      by_cases hid : id < 8 <;> simp [hid]
    simp [this] at h
  syncCount := by decide

/-- A decoder with a byte completed; the state steps. -/
theorem witness_EveryStepKeepsTheDecodersCrc :
    opening.Inv ∧ opening.rxAck.CrcOk ∧ opening.rxData.CrcOk ∧ (⟨[0x05, 0x50], 1, 2, 0x59CDD4DF⟩ : CodecBuf).CrcOk ∧
    onNext (step opening) (fun t => t.occupied 0) := by
  exact ⟨witness_EveryStepKeepsTheInvariant, rfl, rfl, by unfold CodecBuf.CrcOk; decide +kernel, by decide +kernel⟩

theorem witness_SynchronizedOnceAndForAll :
    onNext (step { State.reset with requests := [⟨.host, [0x08]⟩]
                                    link := { Link.reset with accepts := [5], levels := [25] } })
      (fun t => t.syncSent) ∧
    onNext (step { State.reset with requests := [⟨.host, [0x09]⟩], syncSent := true }) (fun t => t.syncSent) := by
  decide +kernel

theorem witness_OutputsOnlyGrow :
    onNext (step { linked (withChannel 0 [] false (some someRx)) [frame41] [100] [0] [5001] with
        requests := [⟨.host, [0x08]⟩] })
      (fun t => t.answers.length == 1 && t.delivered.length == 1 && t.link.tx == ack0) := by decide +kernel

theorem witness_OnlyInboundDataDelivers :
    mayDeliver (.send 0 1 false [0x41]) = false ∧
    onNext (exec (.send 0 1 false [0x41]) (withChannel 0 [] false none)) (fun t => t.answers.length == 1) ∧
    mayDeliver .wEoa = false ∧ mayDeliver .txstep = false := by decide +kernel

theorem witness_InFlightFramesStay :
    mayTouchFrames (.getnext 0) = false ∧
    onNext (exec (.getnext 0) (withFlight State.reset 0 0)) (fun t => t.nackCount == 1) ∧
    mayTouchFrames .wEod = false ∧ mayTouchFrames (.closeSlot none) = false := by decide +kernel

/-- The first clause of each push, at its boundary: `count` one below the capacity. -/
theorem witness_pushes_without_room :
    16 < ((withBuffers ⟨[], 15, 0, 0⟩ ⟨[], 351, 0, 0⟩ ⟨[], 15, 0, 0⟩ ⟨[], 351, 0, 0⟩).ackQ.slots[0]).count + 2 ∧
    352 < ((withBuffers ⟨[], 15, 0, 0⟩ ⟨[], 351, 0, 0⟩ ⟨[], 15, 0, 0⟩ ⟨[], 351, 0, 0⟩).win.slots[0]).frame.count + 2 ∧
    16 < (withBuffers ⟨[], 15, 0, 0⟩ ⟨[], 351, 0, 0⟩ ⟨[], 15, 0, 0⟩ ⟨[], 351, 0, 0⟩).rxAck.count + 2 ∧
    352 < (withBuffers ⟨[], 15, 0, 0⟩ ⟨[], 351, 0, 0⟩ ⟨[], 15, 0, 0⟩ ⟨[], 351, 0, 0⟩).rxData.count + 2 := by decide +kernel

/-- The last push of a full buffer (step 2), and an inner one (step 1). -/
theorem witness_EncAPushPacksTheByte :
    (CodecBuf.mk (List.replicate 15 0x40) 14 2 0).EncOk .ack ∧
    (State.reset.setAckFrame 0 (CodecBuf.mk (List.replicate 15 0x40) 14 2 0)).ackQ.slots[0] =
      CodecBuf.mk (List.replicate 15 0x40) 14 2 0 ∧ 14 + 2 ≤ 16 ∧
    (CodecBuf.mk (List.replicate 14 0x40) 13 1 0).EncOk .ack := by
  exact ⟨⟨by decide, by decide, by decide⟩, rfl, by decide, ⟨by decide, by decide, by decide⟩⟩

theorem witness_EncDPushPacksTheByte :
    (CodecBuf.mk (List.replicate 351 0x80) 350 6 0).EncOk .data ∧
    (State.reset.setWinFrame 0 (CodecBuf.mk (List.replicate 351 0x80) 350 6 0)).win.slots[0].frame =
      CodecBuf.mk (List.replicate 351 0x80) 350 6 0 ∧ 350 + 2 ≤ 352 ∧
    (CodecBuf.mk [0x80, 0x80] 1 1 0).EncOk .data ∧ CodecBuf.empty.EncOk .data := by
  exact ⟨⟨by decide, by decide +kernel, by decide +kernel⟩, rfl, by decide, ⟨by decide, by decide, by decide⟩,
    ⟨by decide, by decide, by decide⟩⟩

/-- Both clauses of `END` at the boundary: `count` 15 fits at step 0 and not at step 1; 351 the same. -/
theorem witness_EndAppendsTheTerminator :
    (CodecBuf.mk (List.replicate 15 0x40) 15 0 0).EncOk .ack ∧ (CodecBuf.mk (List.replicate 16 0x40) 15 1 0).EncOk .ack ∧
    15 + 1 ≤ 16 ∧ 16 < (15 + 1) + 1 ∧
    (CodecBuf.mk (List.replicate 351 0x80) 351 0 0).EncOk .data ∧
    (CodecBuf.mk (List.replicate 352 0x80) 351 1 0).EncOk .data ∧ 351 + 1 ≤ 352 ∧ 352 < (351 + 1) + 1 := by
  exact ⟨⟨by decide, by decide, by decide⟩, ⟨by decide, by decide, by decide⟩, by decide, by decide,
    ⟨by decide, by decide +kernel, by decide +kernel⟩, ⟨by decide, by decide +kernel, by decide +kernel⟩, by decide, by decide⟩

/-- Each clause of the decoder's push: steps 0, 1, 2 and the last position. -/
theorem witness_DecAPushUnpacksTheByte :
    (CodecBuf.mk (List.replicate 14 0) 14 0 0).DecOk .ack ∧ (CodecBuf.mk (List.replicate 15 0) 14 2 0).DecOk .ack ∧
    (CodecBuf.mk (List.replicate 15 0) 14 3 0).DecOk .ack ∧ 14 + 2 ≤ 16 ∧
    ({ State.reset with rxAck := CodecBuf.mk (List.replicate 15 0) 14 3 0 }).rxAck =
      CodecBuf.mk (List.replicate 15 0) 14 3 0 := by
  exact ⟨⟨by decide, by decide, by decide⟩, ⟨by decide, by decide, by decide⟩, ⟨by decide, by decide, by decide⟩,
    by decide, rfl⟩

theorem witness_DecDPushUnpacksTheByte :
    (CodecBuf.mk (List.replicate 350 0) 350 0 0).DecOk .data ∧ (CodecBuf.mk (List.replicate 351 0) 350 6 0).DecOk .data ∧
    (CodecBuf.mk (List.replicate 351 0) 350 7 0).DecOk .data ∧ 350 + 2 ≤ 352 ∧
    (withRxData State.reset (CodecBuf.mk (List.replicate 351 0) 350 7 0)).rxData =
      CodecBuf.mk (List.replicate 351 0) 350 7 0 := by
  exact ⟨⟨by decide, by decide +kernel, by decide +kernel⟩, ⟨by decide, by decide +kernel, by decide +kernel⟩,
    ⟨by decide, by decide +kernel, by decide +kernel⟩, by decide, rfl⟩

/-- The last index of a frame and the first beyond it. -/
theorem witness_RandomAccessDecodeResult :
    (∀ b ∈ [0x41#8, 0x55, 0x67, 0x4D, 0x75, 0x4D, 0x7C], isAckByte b = true) ∧ isAckByte 0x01 = false ∧
    (4#16).toNat < 7 * 3 / 4 ∧ 7 * 3 / 4 ≤ (5#16).toNat ∧
    (∀ b ∈ [0x80#8, 0x80, 0x88, 0x98, 0xB9, 0x8C, 0xA1, 0xC0], isDataByte b = true) ∧ isDataByte 0x02 = false ∧
    (6#16).toNat < 8 * 7 / 8 ∧ 8 * 7 / 8 ≤ (7#16).toNat := by decide

theorem witness_RandomAccessAgreesWithEncoder :
    (List.replicate 11 0x41#8)[10]? = some 0x41 ∧ (List.replicate 11 0x41#8).length ≤ 11 ∧
    (List.replicate 307 0x41#8)[306]? = some 0x41 ∧ (List.replicate 307 0x41#8).length ≤ 307 := by decide +kernel

theorem witness_EncodedFramesDecode : (List.replicate 300 0x2C#8).length ≤ 300 ∧ ([] : List Byte).length ≤ 300 := by decide +kernel

theorem witness_EncodedLengths :
    (List.replicate 307 0x2C#8).length ≤ 307 ∧ (List.replicate 11 0x2C#8).length ≤ 11 ∧
    (List.replicate 256 0x2C#8).length ≤ 256 := by decide +kernel

theorem witness_EncodedBytesStayInTheirAlphabet :
    0x4B#8 ∈ (CodecBuf.empty.encPushAll .ack [0x2C]).bytes ∧ 0x96#8 ∈ (CodecBuf.empty.encPushAll .data [0x2C]).bytes := by
  decide +kernel

/-- Both clauses of `OPEN` at the boundary: slot 7, number 8, an occupied slot. -/
theorem witness_OpenRegistersAFreshChannel :
    (7 < (8#8).toNat) ∧ ((withChannel 0 [] false none).channel (0#8).toNat).isSome ∧
    (7#8).toNat ≤ 7 ∧ (State.reset.channel (7#8).toNat).isNone := by decide +kernel

theorem witness_CloseDestroysTheChannel :
    (State.reset.channel (0xFE#8).toNat).isNone ∧ ((withChannel 7 [0x41] true none).channel (7#8).toNat).isSome := by
  decide +kernel

theorem witness_ClosedSlotCommandsRefused :
    7 < (8#8).toNat ∧ (State.reset.channel (7#8).toNat).isNone ∧
    (∃ len more data, Instr.send 8 1 true [0x41] = .send 8 len more data) := by
  exact ⟨by decide, by decide +kernel, _, _, _, rfl⟩

/-- An open slot, data of the length offered; a full queue. -/
theorem witness_SendQueuesWhatFits :
    (withChannel 7 [0x41] false none).channel (7#8).toNat = some ⟨[0x41], false, none⟩ ∧
    [0x42#8, 0x43].length = (2#16).toNat ∧
    (withChannel 0 (List.replicate 1024 0) true none).channel (0#8).toNat = some ⟨List.replicate 1024 0, true, none⟩ ∧
    (List.replicate 1024 0#8).length ≤ 1024 := by
  exact ⟨rfl, rfl, rfl, by decide +kernel⟩

/-- Each clause of `SETRX`: a receiver, a null callback with tags, and none. -/
theorem witness_SetrxReplacesTheReceiver_and_TxflushEmptiesTheQueue :
    (withChannel 3 [0x41] true (some someRx)).channel (3#8).toNat = some ⟨[0x41], true, some someRx⟩ ∧
    (∃ rx, RxOperand.tags true someRx = .tags true rx) ∧
    (∃ rx, RxOperand.tags false someRx = .none ∨ RxOperand.tags false someRx = .tags false rx) := by
  exact ⟨rfl, ⟨_, rfl⟩, ⟨_, .inr rfl⟩⟩

theorem witness_TxsizeAndGetnackResults : ((withChannel 7 [] false none).channel (7#8).toNat).isSome := by decide +kernel

theorem witness_TxspaceFallsByWhatSendAccepts :
    (withChannel 0 (List.replicate 1000 0) false none).channel (0#8).toNat = some ⟨List.replicate 1000 0, false, none⟩ ∧
    (List.replicate 1000 0#8).length ≤ 1024 ∧ (List.replicate 100 0#8).length = (100#16).toNat := by
  exact ⟨rfl, by decide +kernel, by decide +kernel⟩

theorem witness_GetnextSendsTheOldestAck : 0 < (withAck State.reset 7).ackQ.len := by decide

/-- At the deadline, and at the last instant that counts as late. -/
theorem witness_GetnextRetransmitsTheOldest :
    (withFlight State.reset 0 0x10).ackQ.len = 0 ∧ 0 < (withFlight State.reset 0 0x10).win.len ∧
    (0x10#32 - ((withFlight State.reset 0 0x10).win.slots[0]).deadline).toNat < 2 ^ 31 ∧
    (0x8000000F#32 - ((withFlight State.reset 0 0x10).win.slots[0]).deadline).toNat < 2 ^ 31 := by decide +kernel

/-- A full frame's worth with `more` set on slot 7, behind a channel that waits. -/
def ready : State :=
  (withFlight State.reset 0 0x10).setChannel 7 (some ⟨List.replicate 256 0x41, true, none⟩)

theorem no_channel_below_seven (j : Nat) (d : Channel) (h : j < 7) : ready.channel j ≠ some d := by
  have : j = 0 ∨ j = 1 ∨ j = 2 ∨ j = 3 ∨ j = 4 ∨ j = 5 ∨ j = 6 := by omega
  rcases this with rfl | rfl | rfl | rfl | rfl | rfl | rfl <;> intro e <;> cases e

theorem witness_GetnextFramesTheLowestReadyChannel :
    ready.ackQ.len = 0 ∧ ready.win.len < 3 ∧
    ¬ (0 < ready.win.len ∧ (0x0F#32 - (ready.win.slots[0]).deadline).toNat < 2 ^ 31) ∧
    ready.channel 7 = some ⟨List.replicate 256 0x41, true, none⟩ ∧
    readyToSend ⟨List.replicate 256 0x41, true, none⟩ ∧
    (∀ j d, j < 7 → ready.channel j = some d → ¬ readyToSend d) ∧ readyToSend ⟨[0x41], false, none⟩ := by
  refine ⟨by decide, by decide, by decide +kernel, rfl, .inl (by decide +kernel), fun j d hj h => ?_, .inr ⟨by decide +kernel, rfl⟩⟩
  exact absurd h (no_channel_below_seven j d hj)

/-- Nothing ready; and a full window. -/
theorem witness_GetnextNothingReady :
    State.reset.ackQ.len = 0 ∧ ¬ (0 < State.reset.win.len ∧ (0#32 - (State.reset.win.slots[0]).deadline).toNat < 2 ^ 31) ∧
    3 ≤ ({ withFlight State.reset 0 0x10 with
      win := { (withFlight State.reset 0 0x10).win with len := 3 } }).win.len ∧
    ¬ readyToSend ⟨List.replicate 255 0x41, true, none⟩ := by
  refine ⟨by decide, by decide, by decide, ?_⟩
  unfold readyToSend
  decide +kernel

theorem witness_PriorityLaw :
    (withAck ready 7).ackQ.len = 1 ∧ (withAck ready 7).win.len = 1 ∧
    timedOut 0x10 ((withAck ready 7).win.slots[0]).deadline = true ∧
    (withAck ready 7).channel 7 = some ⟨List.replicate 256 0x41, true, none⟩ ∧
    readyToSend ⟨List.replicate 256 0x41, true, none⟩ ∧
    (∀ j d, j < 7 → (withAck ready 7).channel j = some d → ¬ readyToSend d) := by
  refine ⟨rfl, rfl, by decide +kernel, rfl, .inl (by decide +kernel), fun j d hj h => ?_⟩
  exact absurd h (no_channel_below_seven j d hj)

/-- Each clause: an empty window; a frame of another number; its own. -/
theorem witness_AckxRemovesOnlyTheOldest :
    State.reset.win.len = 0 ∧ 0 < (withFlight State.reset 0xFF 0).win.len ∧
    ((withFlight State.reset 0xFF 0).win.slots[0]).frame.bytes =
      0xFF#8 :: 0xC0#8 :: ((withFlight State.reset 0xFF 0).win.slots[0]).frame.bytes.drop 2 ∧
    (0xFF#8) = BitVec.ofNat 8 ((0xFF#8).toNat % 128 * 2 + (0xC0#8).toNat % 128 / 64) ∧ (0x00#8) ≠ 0xFF := by
  decide +kernel

theorem witness_SchedackQueuesTheAckFrame :
    ({ State.reset with ackQ := { State.reset.ackQ with len := 2 } }).ackQ.len < 3 ∧
    3 ≤ ({ State.reset with ackQ := { State.reset.ackQ with len := 3 } }).ackQ.len := by decide

theorem witness_AcknowledgedFrameAdvancesTheNumber :
    ({ withChannel 0 [0x41] false none with nextSeq := 0xFF }).ackQ.len = 0 ∧
    ({ withChannel 0 [0x41] false none with nextSeq := 0xFF }).win.len = 0 ∧
    (withChannel 0 [0x41] false none).channel 0 = some ⟨[0x41], false, none⟩ ∧ readyToSend ⟨[0x41], false, none⟩ ∧
    (withChannel 0 [] true none).ackQ.len = 0 ∧ (withChannel 0 [] true none).win.len = 0 ∧
    (withChannel 0 [] true none).channel (0#8).toNat = some ⟨[], true, none⟩ ∧
    (∀ j d, j < (0#8).toNat → (withChannel 0 [] true none).channel j = some d → ¬ readyToSend d) := by
  exact ⟨rfl, rfl, rfl, .inr ⟨by decide +kernel, rfl⟩, rfl, rfl, rfl, fun j d hj => absurd hj (Nat.not_lt_zero j)⟩

theorem witness_ThirdSyncResynchronises :
    ({ State.reset with syncCount := 1 }).syncCount.toNat < 2 ∧ 2 ≤ ({ State.reset with syncCount := 2 }).syncCount.toNat := by
  decide

/-- Each clause: a good frame; a register that is not zero; five bytes too many and too few. -/
theorem witness_EndOfAckAcknowledges :
    (⟨[0, 0x4E, 0x08, 0xBF, 0xB4, 0], 5, 3, 0⟩ : CodecBuf).crc = 0 ∧
    (⟨[0, 0x4E, 0x08, 0xBF, 0xB4, 0], 5, 3, 0⟩ : CodecBuf).count = 5 ∧
    CodecBuf.empty.crc ≠ 0 ∧ (⟨[], 6, 0, 0⟩ : CodecBuf).count ≠ 5 ∧ (⟨[], 4, 0, 0⟩ : CodecBuf).count ≠ 5 := by decide

/-- A decoded frame: number 0, the channel, the payload 0x41. -/
def decodedFrame (ch : Byte) : CodecBuf := ⟨[0, ch, 0x41, 0, 0, 0, 0], 7, 0, 0⟩

/-- Each clause of the end of a data frame: discarded for its length (6) and for its register; out of sequence; channel 8;
a closed slot; no receiver; delivered. -/
theorem witness_EndOfDataAcknowledgesAndDelivers :
    (decodedFrame 0).get 0 = 0 ∧ (decodedFrame 7).get 1 = 7 ∧ (⟨[], 6, 0, 0⟩ : CodecBuf).count ≤ 6 ∧
    CodecBuf.empty.crc ≠ 0 ∧ (decodedFrame 0).crc = 0 ∧ 6 < (decodedFrame 0).count ∧
    (0x00#8) ≠ ({ State.reset with expectedSeq := 1 }).expectedSeq ∧ (0x00#8) = State.reset.expectedSeq ∧
    7 < (8#8).toNat ∧ (State.reset.channel (7#8).toNat).isNone ∧
    (withChannel 7 [] false none).channel (7#8).toNat = some ⟨[], false, none⟩ ∧
    (withChannel 7 [] false (some someRx)).channel (7#8).toNat = some ⟨[], false, some someRx⟩ := by
  exact ⟨rfl, rfl, by decide, by decide, rfl, by decide, by decide, rfl, by decide, by decide +kernel, rfl, rfl⟩

/-- A state that delivers, with a command nested in the delivery. -/
def delivering : State :=
  { withRxData (withChannel 0 [] false (some someRx)) (decodedFrame 0) with nested := [[[0x09]]] }

theorem witness_NestedCommandsRunInTheDelivery :
    decode ⟨.host, [0x09]⟩ = .ok .getnack ∧ mayNest .getnack = true ∧
    decode ⟨.host, [0x08]⟩ = .ok .task ∧ mayNest .task = false ∧ decode ⟨.host, [0x33]⟩ = .error .internalCode ∧
    delivering.rxData.crc = 0 ∧ 6 < delivering.rxData.count ∧ delivering.rxData.get 0 = delivering.expectedSeq ∧
    delivering.channel (delivering.rxData.get 1).toNat = some ⟨[], false, some someRx⟩ ∧
    delivering.nested = [[0x09]] :: [] ∧ onNext (exec .wEod delivering) (fun t => t.answers == [⟨.ok, .num 0⟩]) := by
  exact ⟨by decide, rfl, by decide, rfl, by decide, rfl, by decide, rfl, rfl, rfl, by decide +kernel⟩

theorem witness_DuplicateFrameDeliversOnce :
    (withChannel 7 [] false (some someRx)).rxData = CodecBuf.empty ∧
    ({ withChannel 7 [] false (some someRx) with ackQ := { State.reset.ackQ with len := 1 } }).ackQ.len ≤ 1 ∧
    1 ≤ [0x41#8].length ∧ (List.replicate 256 0x41#8).length ≤ 256 ∧
    (withChannel 7 [] false (some someRx)).channel (7#8).toNat = some ⟨[], false, some someRx⟩ := by
  exact ⟨rfl, by decide, by decide, by decide +kernel, rfl⟩

theorem witness_RxdrainClassifiesInArrivalOrder :
    (∀ bs ∈ [[0x2C#8], [0x2C, 0x2C]], bs ≠ []) ∧
    (linked State.reset [[0x2C], [0x2C, 0x2C], [], [0x00]] [] [] []).link.rx =
      [[0x2C], [0x2C, 0x2C]] ++ [] :: [[0x00]] ∧
    (linked State.reset [[0x2C], [0x2C, 0x2C]] [] [] []).link.rx = [[0x2C], [0x2C, 0x2C]] ∧
    (linked State.reset [[0x2C], [0x2C, 0x2C]] [] [] []).link.rxEndless = false := by
  exact ⟨by decide, rfl, rfl, rfl⟩

theorem witness_SyncburstResult :
    (linked State.reset [] [] [] []).syncSent = true ∧ State.reset.syncSent = false ∧
    ({ Link.reset with accepts := [4] }.transmit [0x2C, 0x2C, 0x2C, 0x2C, 0x2C]).1 ≠ 5 ∧
    ({ Link.reset with accepts := [5] }.transmit [0x2C, 0x2C, 0x2C, 0x2C, 0x2C]).1 = 5 := by decide +kernel

/-- Above the mark; at the mark with nothing to send; at the mark with a frame of which four bytes are taken. -/
theorem witness_TxstepResult :
    ({ Link.reset with levels := [25], clock := [7] }.askLevel).1 = 25 ∧ 24 < 25 ∧
    (linked (withAck State.reset 0) [] [4] [24] [7]).link.askLevel =
      (24, { Link.reset with accepts := [4], clock := [7] }) ∧
    ({ Link.reset with accepts := [4], clock := [7] }.askNow) = (7, { Link.reset with accepts := [4] }) ∧
    onNext (exec .txstep (linked (withAck State.reset 0) [] [4] [24] [7])) (fun t => t.link.tx == ack0.take 4) := by
  exact ⟨rfl, by decide, rfl, rfl, by decide +kernel⟩

/-- Each case of the hypothesis: inbound bytes that end, a listed pause before inbound bytes that do not, and a burst that
is not accepted before inbound bytes that do not. -/
theorem witness_TaskRunsItsThreeSteps :
    State.reset.link.rxEndless = false ∧ [] ∈ ({ Link.reset with rx := [[0x00], []], rxEndless := true }).rx ∧
    State.reset.syncSent = false ∧
    ({ Link.reset with accepts := [4], rxEndless := true }.transmit [0x2C, 0x2C, 0x2C, 0x2C, 0x2C]).1 ≠ 5 ∧
    onNext (exec .task { State.reset with link := { Link.reset with accepts := [4], rxEndless := true } })
      (fun t => !t.syncSent) ∧
    onNext (exec .syncburst { State.reset with link := { Link.reset with accepts := [5] } }) (fun t => t.syncSent) := by
  decide +kernel

end Sys2Proof.Tests
end

/-! ## What a step can do, said once

Every step is a sequence of elementary effects on the block's own state, and at most one transition to Synchronized among
them. An invariant is then one case analysis over the effects (10_state.md). -/

namespace Sys2Proof.Machine

/-- The range of the channel queues (R22). -/
def State.QueuesFit (s : State) : Prop := ∀ id c, s.channel id = some c → c.q.length ≤ txqCap

/-- One elementary effect of an instruction presented on the port `p`. None sets `syncSent`; the two that write an encode
buffer directly belong to the unit-level test port (R70, R167). -/
inductive Effect (p : Port) (s : State) : State → Prop where
  /-- What no invariant of the buffers and queues speaks of: the outside world, the outputs, two numbers. -/
  | outside (expected : Byte) (nack : Word) (link : Link) (requests : List Request) (nested : List (List (List Byte)))
      (answers : List Answer) (delivered : List Delivery) (tx : s.link.tx <+: link.tx) :
      Effect p s { s with expectedSeq := expected, nackCount := nack, link := link, requests := requests,
                          nested := nested, answers := answers, delivered := delivered }
  | setChannel (id : Nat) (c : Option Channel) (fits : s.QueuesFit → ∀ d, c = some d → d.q.length ≤ txqCap) :
      Effect p s (s.setChannel id c)
  | setSyncCount (n : BitVec 2) (le : n.toNat ≤ 2) : Effect p s { s with syncCount := n }
  | pushAck (b : Byte) : Effect p s (s.rxAckByte b)
  | pushData (b : Byte) : Effect p s (s.rxDataByte b)
  | flushAck : Effect p s { s with rxAck := CodecBuf.empty }
  | flushData : Effect p s { s with rxData := CodecBuf.empty }
  | schedReset : Effect p s s.schedReset
  | schedAck (seq : Byte) : Effect p s (s.schedAck seq)
  | ackXfer (seq : Byte) : Effect p s (s.ackXfer seq)
  | getNext (now : Time) : Effect p s (s.getNext now).2
  | encodeAck (test : p = .test) (i : Fin 3) (E : CodecBuf) (ok : (s.ackFrame i).EncOk .ack → E.EncOk .ack) :
      Effect p s (s.setAckFrame i E)
  | encodeData (test : p = .test) (i : Fin 3) (E : CodecBuf) (ok : (s.winFrame i).EncOk .data → E.EncOk .data) :
      Effect p s (s.setWinFrame i E)

/-- Elementary effects in sequence. -/
abbrev Effects (p : Port) : State → State → Prop := Relation.ReflTransGen (Effect p)

/-- The transition to Synchronized (R31, R138): five SYNC bytes first went out, then the scheduler and the decoders were
reset. -/
def Synchronizes (p : Port) (s t : State) : Prop :=
  s.syncSent = false ∧ ∃ u, Effects p s u ∧ u.link.tx = s.link.tx ++ syncBurst ∧ t = { u with syncSent := true }

section effects

variable {p : Port} {s t u : State}

/-! ### Composition -/

theorem effects_foldl {α : Type} {f : State → α → State} (h : ∀ s a, Effects p s (f s a)) (as : List α) (s : State) :
    Effects p s (as.foldl f s) := by
  induction as generalizing s with
  | nil => exact .refl
  | cons a as ih => exact (h s a).trans (ih (f s a))

theorem Synchronizes.of_effects (h : Effects p s t) (hsync : t.syncSent = s.syncSent) (hlink : t.link = s.link)
    (hu : Synchronizes p t u) : Synchronizes p s u := by
  obtain ⟨hf, v, hv, htx, rfl⟩ := hu
  exact ⟨hsync ▸ hf, v, h.trans hv, hlink ▸ htx, rfl⟩

theorem effects_answer (h : Effects p s t) (st : Status) (v : Value) : Effects p s (t.answer st v) :=
  h.tail (.outside _ _ _ _ _ _ _ ⟨[], by simp⟩)

theorem effects_link (l : Link) (h : s.link.tx <+: l.tx) : Effects p s { s with link := l } :=
  .single (.outside _ _ _ _ _ _ _ h)

theorem effects_takeRequest (s : State) : Effects p s s.takeRequest :=
  .single (.outside _ _ _ _ _ _ _ ⟨[], by simp⟩)

theorem effects_setExpected (h : Effects p s t) (n : Byte) : Effects p s { t with expectedSeq := n } :=
  h.tail (.outside _ _ _ _ _ _ _ ⟨[], by simp⟩)

theorem effects_endSyncRun (s : State) : Effects p s s.endSyncRun := .single (.setSyncCount 0 (by decide))

theorem effects_flushDecoders (s : State) : Effects p s s.flushDecoders :=
  (Relation.ReflTransGen.single .flushAck).tail .flushData

/-! ### Channel commands and the delivery -/

theorem effects_onChannel (id : Byte) (f : Channel → State)
    (h : ∀ c, s.channel id.toNat = some c → Effects p s (f c)) : Effects p s (s.onChannel id f) := by
  unfold State.onChannel
  split
  · exact effects_answer .refl _ _
  · exact h _ ‹_›

/-- What `SEND` takes fits the queue (R110). -/
theorem length_append_accepted_le (c : Channel) (len : BitVec 16) (data : List Byte) (h : c.q.length ≤ txqCap) :
    (c.q ++ c.accepted len data).length ≤ txqCap := by
  simp only [Channel.accepted, Channel.space, List.length_append, List.length_take]
  omega

theorem effects_sendCmd (id : Byte) (len : BitVec 16) (more : Bool) (data : List Byte) :
    Effects p s (s.sendCmd id len more data) := by
  refine effects_onChannel id _ fun c hc => effects_answer (.single (.setChannel _ _ fun hq d hd => ?_)) _ _
  cases hd
  exact length_append_accepted_le c len data (hq _ c hc)

theorem effects_setrxCmd (id : Byte) (rx : Option Receiver) : Effects p s (s.setrxCmd id rx) := by
  refine effects_onChannel id _ fun c hc => effects_answer (.single (.setChannel _ _ fun hq d hd => ?_)) _ _
  cases hd
  exact hq _ c hc

theorem effects_txflushCmd (id : Byte) : Effects p s (s.txflushCmd id) := by
  refine effects_onChannel id _ fun c hc => effects_answer (.single (.setChannel _ _ fun hq d hd => ?_)) _ _
  cases hd
  exact Nat.zero_le _

theorem effects_txsizeCmd (id : Byte) : Effects p s (s.txsizeCmd id) :=
  effects_onChannel id _ fun _ _ => effects_answer .refl _ _

theorem effects_txspaceCmd (id : Byte) : Effects p s (s.txspaceCmd id) :=
  effects_onChannel id _ fun _ _ => effects_answer .refl _ _

theorem effects_nestedCmd (s : State) (bytes : List Byte) : Effects p s (s.nestedCmd bytes) := by
  unfold State.nestedCmd
  split
  · exact effects_sendCmd ..
  · exact effects_setrxCmd ..
  · exact effects_txsizeCmd ..
  · exact effects_txspaceCmd ..
  · exact effects_txflushCmd ..
  · exact effects_answer .refl _ _
  · exact effects_answer .refl _ _

theorem effects_deliverReturn (s : State) : Effects p s s.deliverReturn := by
  unfold State.deliverReturn
  split
  · exact .refl
  · exact .head (.outside _ _ _ _ _ _ _ ⟨[], by simp⟩) (effects_foldl effects_nestedCmd _ _)

theorem effects_deliver (ch : Byte) (rx : Receiver) (payload : List Byte) : Effects p s (s.deliver ch rx payload) :=
  .head (.outside _ _ _ _ _ _ _ ⟨[], by simp⟩) (effects_deliverReturn _)

/-! ### Inbound bytes -/

theorem effects_doResync (s : State) : Effects p s s.doResync :=
  effects_setExpected ((effects_flushDecoders s).tail .schedReset) 0

theorem effects_rxSync (s : State) : Effects p s s.rxSync := by
  unfold State.rxSync
  split
  · exact (effects_doResync s).tail (.setSyncCount 0 (by decide))
  · next h =>
    refine .single (.setSyncCount _ ?_)
    simp only [syncRxDetect] at h
    bv_omega

theorem effects_rxEndOfAck (s : State) : Effects p s s.rxEndOfAck := by
  unfold State.rxEndOfAck
  refine Relation.ReflTransGen.tail ?_ .flushAck
  split
  · exact .single (.ackXfer _)
  · exact .refl

theorem effects_deliverPayload (s : State) : Effects p s s.deliverPayload := by
  unfold State.deliverPayload
  split
  · exact effects_deliver ..
  · exact .refl

theorem effects_acceptData (s : State) : Effects p s s.acceptData := by
  have hack : Effects p s (s.schedAck (s.rxData.get 0)) := .single (.schedAck _)
  unfold State.acceptData
  dsimp only
  split
  · exact effects_setExpected (hack.trans (effects_deliverPayload _)) _
  · exact hack

theorem effects_rxEndOfData (s : State) : Effects p s s.rxEndOfData := by
  unfold State.rxEndOfData
  refine Relation.ReflTransGen.tail ?_ .flushData
  split
  · exact effects_acceptData s
  · exact .refl

theorem effects_rxByte (s : State) (b : Byte) : Effects p s (s.rxByte b) := by
  unfold State.rxByte
  dsimp only
  split
  · exact effects_rxSync s
  · refine (effects_endSyncRun s).trans ?_
    split
    · exact .single (.pushAck b)
    · split
      · exact effects_rxEndOfAck _
      · split
        · exact .single (.pushData b)
        · split
          · exact effects_rxEndOfData _
          · exact .refl

theorem effects_drainLoop (inbound : List (List Byte)) (s : State) : Effects p s (State.drainLoop inbound s) := by
  induction inbound generalizing s with
  | nil => exact effects_link _ ⟨[], by simp⟩
  | cons bs rest ih =>
    cases bs with
    | nil => exact effects_link _ ⟨[], by simp⟩
    | cons b bs => exact (effects_foldl effects_rxByte (b :: bs) s).trans (ih _)

/-! ### The transmit side -/

theorem effects_transmit (s : State) (bs : List Byte) : Effects p s (s.transmit bs).2 :=
  effects_link _ ⟨_, (transmit_spec s.link bs).2.1.symm⟩

theorem effects_scheduleFrame (s : State) : Effects p s s.scheduleFrame := by
  have hask : Effects p s { s with link := s.link.askNow.2 } := effects_link _ ⟨[], by simp [askNow_spec]⟩
  have hnext := hask.tail (.getNext s.link.askNow.1)
  unfold State.scheduleFrame
  dsimp only
  split
  · exact hnext
  · exact (hnext.tail .flushAck).trans (effects_transmit _ _)

theorem effects_txStep (s : State) : Effects p s s.txStep := by
  have hask : Effects p s { s with link := s.link.askLevel.2 } := effects_link _ ⟨[], by simp [askLevel_spec]⟩
  unfold State.txStep
  dsimp only
  split
  · exact hask.trans (effects_scheduleFrame _)
  · exact hask

/-- `SYNCBURST` makes the transition, or has elementary effects only (R138). -/
theorem syncBurstStep_cases (s : State) : Effects p s s.syncBurstStep ∨ Synchronizes p s s.syncBurstStep := by
  have hsent : Effects p s (s.transmit syncBurst).2 := effects_transmit s syncBurst
  unfold State.syncBurstStep
  dsimp only
  split
  · exact .inl .refl
  · next hs =>
    split
    · next h5 =>
      refine .inr ⟨by simpa using hs, { (s.transmit syncBurst).2.schedReset.flushDecoders with expectedSeq := 0 },
        effects_setExpected ((hsent.tail .schedReset).trans (effects_flushDecoders _)) 0, ?_, rfl⟩
      have htx := (transmit_spec s.link syncBurst).2.1
      rw [show (s.link.transmit syncBurst).1 = 5 from h5] at htx
      exact htx
    · exact .inl hsent

/-- `TASK` likewise, with the drain and one frame behind (R137). -/
theorem taskStep_cases (s : State) :
    Effects p s s.taskStep ∨ ∃ u, Synchronizes p s u ∧ Effects p u s.taskStep := by
  have hrest : Effects p s.syncBurstStep s.taskStep := by
    unfold State.taskStep
    dsimp only
    split
    · exact (effects_drainLoop _ _).trans (effects_txStep _)
    · exact .refl
  rcases syncBurstStep_cases (p := p) s with h | h
  · exact .inl (h.trans hrest)
  · exact .inr ⟨_, h, hrest⟩

end effects

/-! ### Instructions and steps -/

/-- Every instruction but `TASK` and `SYNCBURST` has elementary effects only. -/
theorem exec_effects (i : Instr) (s t : State) (htask : i ≠ .task) (hburst : i ≠ .syncburst) (h : exec i s = .next t) :
    Effects i.port s t := by
  cases i with
  | wData d => cases h; exact (effects_endSyncRun s).tail (.pushData _)
  | wAck a => cases h; exact (effects_endSyncRun s).tail (.pushAck _)
  | wSync => cases h; exact effects_rxSync s
  | wEoa => cases h; exact (effects_endSyncRun s).trans (effects_rxEndOfAck _)
  | wEod => cases h; exact (effects_endSyncRun s).trans (effects_rxEndOfData _)
  | wGarbage g => cases h; exact effects_endSyncRun s
  | openSlot id =>
    cases h
    split
    · exact effects_answer .refl _ _
    · exact effects_answer (.single (.setChannel _ _ fun _ d hd => by cases hd; exact Nat.zero_le _)) _ _
  | closeSlot id =>
    cases h
    split
    · exact effects_answer .refl _ _
    · exact effects_onChannel _ _ fun _ _ => effects_answer (.single (.setChannel _ _ fun _ d hd => by cases hd)) _ _
  | send id len more data => cases h; exact effects_sendCmd ..
  | setrx id rx => cases h; exact effects_setrxCmd ..
  | txsize id => cases h; exact effects_txsizeCmd ..
  | txspace id => cases h; exact effects_txspaceCmd ..
  | txflush id => cases h; exact effects_txflushCmd ..
  | task => exact absurd rfl htask
  | getnack => cases h; exact effects_answer .refl _ _
  | encAPush e b =>
    cases h; exact effects_answer (.single (.encodeAck rfl e _ (encPush_encOk _ _ b))) _ _
  | encAPush32 e v =>
    cases h; exact effects_answer (.single (.encodeAck rfl e _ (encPush32_encOk _ _ v))) _ _
  | encAEnd e =>
    cases h; exact effects_answer (.single (.encodeAck rfl e _ (encEnd_encOk _ _))) _ _
  | encAFlush e =>
    cases h; exact effects_answer (.single (.encodeAck rfl e _ fun _ => empty_encOk _)) _ _
  | encDPush e b =>
    cases h; exact effects_answer (.single (.encodeData rfl e _ (encPush_encOk _ _ b))) _ _
  | encDPush32 e v =>
    cases h; exact effects_answer (.single (.encodeData rfl e _ (encPush32_encOk _ _ v))) _ _
  | encDEnd e =>
    cases h; exact effects_answer (.single (.encodeData rfl e _ (encEnd_encOk _ _))) _ _
  | encDFlush e =>
    cases h; exact effects_answer (.single (.encodeData rfl e _ fun _ => empty_encOk _)) _ _
  | decAPush b => cases h; exact effects_answer (.single (.pushAck b)) _ _
  | decAFlush => cases h; exact effects_answer (.single .flushAck) _ _
  | decDPush b => cases h; exact effects_answer (.single (.pushData b)) _ _
  | decDFlush => cases h; exact effects_answer (.single .flushData) _ _
  | decodeA frame n | decodeD frame n =>
    cases h
    split
    · exact effects_answer .refl _ _
    · exact effects_answer .refl _ _
  | isSync b | isEoa b | isEod b | isAck b | isData b | crc32Step c b => cases h; exact effects_answer .refl _ _
  | getnext now =>
    cases h
    have hnext : Effects (Instr.getnext now).port s (s.getNext now).2 := .single (.getNext now)
    unfold State.answerFrame
    split
    · exact effects_answer hnext _ _
    · exact effects_answer hnext _ _
  | ackx seq => cases h; exact effects_answer (.single (.ackXfer seq)) _ _
  | schedack seq => cases h; exact effects_answer (.single (.schedAck seq)) _ _
  | sreset => cases h; exact effects_answer (.single .schedReset) _ _
  | syncburst => exact absurd rfl hburst
  | rxdrain =>
    simp only [exec, execRxdrain] at h
    split at h
    · cases h
    · cases h; exact effects_answer (effects_drainLoop _ s) _ _
  | rxbyte b => cases h; exact effects_answer (effects_rxByte s b) _ _
  | resync => cases h; exact effects_answer (effects_doResync s) _ _
  | txstep => cases h; exact effects_answer (effects_txStep s) _ _

/-- What an instruction can do: elementary effects, and for `TASK` and `SYNCBURST` the transition among them. -/
theorem exec_cases (i : Instr) (s t : State) (h : exec i s = .next t) :
    Effects i.port s t ∨
    ((i = .task ∨ i = .syncburst) ∧ ∃ u, Synchronizes i.port s u ∧ Effects i.port u t) := by
  by_cases htask : i = .task
  · subst htask
    simp only [exec, execTask] at h
    split at h
    · cases h
    · cases h
      rcases taskStep_cases (p := Instr.task.port) s with hr | ⟨u, hu, hr⟩
      · exact .inl (effects_answer hr _ _)
      · exact .inr ⟨.inl rfl, u, hu, effects_answer hr _ _⟩
  · by_cases hburst : i = .syncburst
    · subst hburst
      cases h
      rcases syncBurstStep_cases (p := Instr.syncburst.port) s with hr | hu
      · exact .inl (effects_answer hr _ _)
      · exact .inr ⟨.inr rfl, _, hu, effects_answer .refl _ _⟩
    · exact .inl (exec_effects i s t htask hburst h)

theorem port_decodeWire (b : Byte) : (decodeWire b).port = .wire := by
  unfold decodeWire
  repeat' split
  all_goals rfl

theorem port_of_decodeCmdOn (p : Port) (bytes : List Byte) (i : Instr) (h : decodeCmdOn p bytes = .ok i) : i.port = p := by
  unfold decodeCmdOn at h
  split at h
  · cases h
  · split at h
    · next hp =>
      split at h
      · cases h; exact hp
      · cases h
    · split at h <;> cases h

/-- An instruction is presented on its own port. -/
theorem port_of_decode (r : Request) (i : Instr) (h : decode r = .ok i) : i.port = r.port := by
  obtain ⟨p, bytes⟩ := r
  cases p with
  | host => exact port_of_decodeCmdOn _ _ _ h
  | test => exact port_of_decodeCmdOn _ _ _ h
  | wire =>
    match bytes, h with
    | [b], h => cases h; exact port_decodeWire b

/-- What a step can do: nothing when idle, and else what the transaction that it takes can do on its port. -/
theorem step_cases (s t : State) (h : step s = .next t) :
    t = s ∨ ∃ r, s.requests.head? = some r ∧
      (Effects r.port s t ∨
       ((decode r = .ok .task ∨ decode r = .ok .syncburst) ∧ ∃ u, Synchronizes r.port s u ∧ Effects r.port u t)) := by
  unfold step at h
  split at h
  · cases h; exact .inl rfl
  · next r rest hreq =>
    have htake : Effects r.port s s.takeRequest := effects_takeRequest s
    refine .inr ⟨r, by simp [hreq], ?_⟩
    split at h
    · next i hdec =>
      have hc := exec_cases i _ _ h
      rw [port_of_decode r i hdec] at hc
      rcases hc with he | ⟨hi, u, hu, he⟩
      · exact .inl (htake.trans he)
      · refine .inr ⟨?_, u, hu.of_effects htake rfl rfl, he⟩
        rcases hi with rfl | rfl
        · exact .inl hdec
        · exact .inr hdec
    · cases h
      refine .inl (htake.trans ?_)
      unfold State.rejectRequest
      split
      · exact effects_answer .refl _ _
      · exact effects_answer .refl _ _
      · exact .refl

/-- A predicate that every elementary effect of the presented port keeps, and the transition to Synchronized, every step
keeps. -/
theorem step_keeps {P : State → Prop} {s t : State} (hstep : step s = .next t)
    (heffect : ∀ r, s.requests.head? = some r → ∀ u v, Effect r.port u v → P u → P v)
    (hsync : ∀ u, P u → P { u with syncSent := true }) (hs : P s) : P t := by
  rcases step_cases s t hstep with rfl | ⟨r, hr, h⟩
  · exact hs
  · have hrun : ∀ u v, Effects r.port u v → P u → P v := by
      intro u v huv hu
      induction huv with
      | refl => exact hu
      | tail _ he ih => exact heffect r hr _ _ he ih
    rcases h with he | ⟨-, _, ⟨-, u, hu, -, rfl⟩, he⟩
    · exact hrun _ _ he hs
    · exact hrun _ _ he (hsync u (hrun _ _ hu hs))

/-! ## Every step keeps the ranges (R14, R22, R29, R32) -/

/-- The range of a window entry's buffer (R14). -/
def WinEntry.FrameFits (w : WinEntry) : Prop := w.frame.EncOk .data

theorem put_all {α : Type} {P : α → Prop} {f : Fifo α} (h : ∀ i : Fin 3, P f.slots[i]) (i : Fin 3) {x : α} (hx : P x)
    (j : Fin 3) : P (f.put i x).slots[j] := by
  rw [put_slot]
  split
  · exact hx
  · exact h j

theorem push_all {α : Type} {P : α → Prop} {f : Fifo α} (h : ∀ i : Fin 3, P f.slots[i]) (i : Fin 3) {x : α} (hx : P x)
    (j : Fin 3) : P (f.push i x).slots[j] := put_all h i hx j

theorem pop_all {α : Type} {P : α → Prop} {f : Fifo α} (h : ∀ i : Fin 3, P f.slots[i]) {x : α} (hx : P x) (j : Fin 3) :
    P (f.pop x).slots[j] := by
  by_cases hj : j.val + 1 < 3
  · simpa only [Fin.getElem_fin, pop_slot f x j.val hj] using h ⟨j.val + 1, hj⟩
  · obtain rfl : j = 2 := by omega
    exact hx

theorem setChannel_queuesFit {s : State} (h : s.QueuesFit) (id : Nat) (c : Option Channel)
    (hc : ∀ d, c = some d → d.q.length ≤ txqCap) : (s.setChannel id c).QueuesFit := by
  intro j d hd
  by_cases hj : id = j
  · subst hj
    have hlt := lt_of_channel_some _ _ _ hd
    exact hc d (by simpa [hlt] using hd)
  · exact h j d (by simpa [hj] using hd)

theorem schedReset_inv {s : State} (h : s.Inv) : s.schedReset.Inv :=
  { h with
    ackSlots := fun i => by simp [empty_encOk]
    winSlots := fun i => by simp [empty_encOk]
    ackLen := Nat.zero_le _
    winLen := Nat.zero_le _ }

theorem schedAck_inv {s : State} (h : s.Inv) (seq : Byte) : (s.schedAck seq).Inv := by
  rcases schedAck_cases s seq with ⟨hlt, hq⟩ | ⟨-, hs⟩
  · rw [schedAck_frame, hq]
    exact { h with ackSlots := push_all h.ackSlots _ (builtAck_encOk seq), ackLen := hlt }
  · rwa [hs]

theorem ackXfer_inv {s : State} (h : s.Inv) (seq : Byte) : (s.ackXfer seq).Inv := by
  rcases ackXfer_cases s seq with ⟨-, -, hs⟩ | ⟨-, hs⟩
  · rw [hs]
    exact { h with
      winSlots := pop_all (P := WinEntry.FrameFits) h.winSlots (empty_encOk _)
      winLen := (Nat.sub_le _ _).trans h.winLen }
  · rwa [hs]

theorem sendQueuedAck_inv {s : State} (h : s.Inv) : s.sendQueuedAck.2.Inv :=
  { h with ackSlots := pop_all h.ackSlots (h.ackSlots 0), ackLen := (Nat.sub_le _ _).trans h.ackLen }

theorem retransmit_inv {s : State} (h : s.Inv) (now : Time) : (s.retransmit now).2.Inv :=
  { h with winSlots := put_all (P := WinEntry.FrameFits) h.winSlots 0 (h.winSlots 0) }

/-- A window entry that holds a built frame keeps its range (R76). -/
theorem frameFits_buildData (E : CodecBuf) (seq ch : Byte) (payload : List Byte) (deadline duration : Time) :
    WinEntry.FrameFits ⟨E.buildData seq ch payload, deadline, duration⟩ := by
  simp only [WinEntry.FrameFits, buildData_eq]
  exact builtData_encOk seq ch payload

theorem buildNew_inv {s : State} (h : s.Inv) (now : Time) (id : Nat) (c : Channel) (hc : s.channel id = some c)
    (hlt : s.win.len < 3) : (s.buildNew now id c ⟨s.win.len, hlt⟩).2.Inv := by
  have hq : (s.setChannel id (some { c with q := c.q.drop maxPayload })).QueuesFit := by
    refine setChannel_queuesFit h.queues id _ fun d hd => ?_
    cases hd
    rw [List.length_drop]
    exact (Nat.sub_le _ _).trans (h.queues id c hc)
  exact { h with
    queues := hq
    winSlots := push_all (P := WinEntry.FrameFits) h.winSlots _ (frameFits_buildData _ _ _ _ _ _)
    winLen := hlt }

theorem getNext_inv {s : State} (h : s.Inv) (now : Time) : (s.getNext now).2.Inv := by
  rcases getNext_cases s now with ⟨-, hs⟩ | ⟨-, -, -, hs⟩ | ⟨id, c, hlt, -, hf, hs⟩ | hs
  · rw [hs]; exact sendQueuedAck_inv h
  · rw [hs]; exact retransmit_inv h now
  · rw [hs]; exact buildNew_inv h now id c (firstEligible_some s id c hf).2.1 hlt
  · rwa [hs]

theorem Effect.inv {p : Port} {s t : State} (he : Effect p s t) (h : s.Inv) : t.Inv := by
  cases he with
  | outside => exact { h with }
  | setChannel id c fits => exact { h with queues := setChannel_queuesFit h.queues id c (fits h.queues) }
  | setSyncCount n le => exact { h with syncCount := le }
  | pushAck b => exact { h with rxAck := decPush_decOk _ _ b h.rxAck }
  | pushData b => exact { h with rxData := decPush_decOk _ _ b h.rxData }
  | flushAck => exact { h with rxAck := empty_decOk _ }
  | flushData => exact { h with rxData := empty_decOk _ }
  | schedReset => exact schedReset_inv h
  | schedAck seq => exact schedAck_inv h seq
  | ackXfer seq => exact ackXfer_inv h seq
  | getNext now => exact getNext_inv h now
  | encodeAck _ i E ok => exact { h with ackSlots := put_all h.ackSlots i (ok (h.ackSlots i)) }
  | encodeData _ i E ok =>
    exact { h with winSlots := put_all (P := WinEntry.FrameFits) h.winSlots i (ok (h.winSlots i)) }

/-- Settles O9: every elementary effect keeps the ranges. -/
theorem everyStepKeepsTheInvariant : Obligations.EveryStepKeepsTheInvariant := by
  intro s t hs hstep
  exact step_keeps hstep (fun _ _ _ _ he hu => he.inv hu) (fun _ hu => { hu with }) hs

/-! ## Every step off the test port keeps the frames complete (R25, R26, R27, R32) -/

theorem schedReset_framesOk (s : State) : s.schedReset.FramesOk :=
  ⟨fun _ hi => absurd hi (Nat.not_lt_zero _), fun _ hi => absurd hi (Nat.not_lt_zero _)⟩

theorem schedAck_framesOk {s : State} (h : s.FramesOk) (seq : Byte) : (s.schedAck seq).FramesOk := by
  rcases schedAck_cases s seq with ⟨hlt, hq⟩ | ⟨-, hs⟩
  · rw [schedAck_frame, hq]
    refine { h with acks := fun i hi => ?_ }
    simp only [push_len] at hi
    simp only [push_slot]
    split
    · exact ⟨seq, rfl⟩
    · next hne => exact h.acks i (by simp only [Fin.ext_iff] at hne; omega)
  · rwa [hs]

/-- The entry behind a live entry of a popped queue is where it was before. -/
theorem pop_slot_of_lt {α : Type} (f : Fifo α) (x : α) (hlen : f.len ≤ 3) (i : Fin 3) (hi : i.val < (f.pop x).len) :
    ∃ j : Fin 3, j.val = i.val + 1 ∧ j.val < f.len ∧ (f.pop x).slots[i] = f.slots[j] := by
  rw [pop_len] at hi
  have hj : i.val + 1 < 3 := by omega
  exact ⟨⟨i.val + 1, hj⟩, rfl, by simp only; omega, pop_slot f x i.val hj⟩

theorem ackXfer_framesOk {s : State} (hinv : s.Inv) (h : s.FramesOk) (seq : Byte) : (s.ackXfer seq).FramesOk := by
  rcases ackXfer_cases s seq with ⟨-, -, hs⟩ | ⟨-, hs⟩
  · rw [hs]
    refine { h with data := fun i hi => ?_ }
    obtain ⟨j, hj, hlt, hslot⟩ := pop_slot_of_lt s.win _ hinv.winLen i hi
    obtain ⟨ch, payload, hch, hpos, hle, hframe⟩ := h.data j hlt
    refine ⟨ch, payload, hch, hpos, hle, ?_⟩
    have hage : s.win.len - 1 - i.val = s.win.len - j.val := by omega
    simp only [hslot, hframe, pop_len, hage]
  · rwa [hs]

theorem sendQueuedAck_framesOk {s : State} (hinv : s.Inv) (h : s.FramesOk) : s.sendQueuedAck.2.FramesOk := by
  refine { h with acks := fun i hi => ?_ }
  obtain ⟨j, -, hlt, hslot⟩ := pop_slot_of_lt s.ackQ _ hinv.ackLen i hi
  obtain ⟨seq, hseq⟩ := h.acks j hlt
  exact ⟨seq, hslot.trans hseq⟩

/-- A retransmission changes no frame. -/
theorem retransmit_frame_eq (s : State) (now : Time) (i : Fin 3) :
    (s.retransmit now).2.win.slots[i].frame = s.win.slots[i].frame := by
  simp only [State.retransmit, put_slot]
  split
  · next hi => subst hi; rfl
  · rfl

theorem retransmit_framesOk {s : State} (h : s.FramesOk) (now : Time) : (s.retransmit now).2.FramesOk := by
  refine { h with data := fun i hi => ?_ }
  simp only [retransmit_frame_eq]
  exact h.data i hi

theorem eligible_length_pos (c : Channel) (h : c.eligible = true) : 0 < c.q.length := by
  simp only [Channel.eligible, Bool.or_eq_true, Bool.and_eq_true, decide_eq_true_eq] at h
  rcases h with h | ⟨h, -⟩
  · exact Nat.lt_of_lt_of_le (by decide) h
  · exact h

theorem buildNew_framesOk {s : State} (h : s.FramesOk) (now : Time) (id : Nat) (c : Channel) (hid : id < 8)
    (hc : c.eligible = true) (hlt : s.win.len < 3) : (s.buildNew now id c ⟨s.win.len, hlt⟩).2.FramesOk := by
  refine { h with data := fun i hi => ?_ }
  have hpos := eligible_length_pos c hc
  simp only [State.buildNew, push_len] at hi
  simp only [State.buildNew, push_slot, push_len, buildData_eq]
  by_cases hnew : s.win.len = i.val
  · refine ⟨BitVec.ofNat 8 id, c.q.take maxPayload, ?_, ?_, ?_, ?_⟩
    · rw [BitVec.toNat_ofNat]; omega
    · rw [List.length_take, maxPayload]; omega
    · exact List.length_take_le _ _
    · simp [hnew]
  · obtain ⟨ch, payload, hch, hpos, hle, hframe⟩ := h.data i (by omega)
    refine ⟨ch, payload, hch, hpos, hle, ?_⟩
    have hage : s.nextSeq + 1 - BitVec.ofNat 8 (s.win.len + 1 - i.val) =
        s.nextSeq - BitVec.ofNat 8 (s.win.len - i.val) := by
      rw [show s.win.len + 1 - i.val = s.win.len - i.val + 1 by omega, BitVec.ofNat_add]
      bv_omega
    rw [if_neg (by simpa [Fin.ext_iff] using hnew), hage]
    exact hframe

theorem getNext_framesOk {s : State} (hinv : s.Inv) (h : s.FramesOk) (now : Time) : (s.getNext now).2.FramesOk := by
  rcases getNext_cases s now with ⟨-, hs⟩ | ⟨-, -, -, hs⟩ | ⟨id, c, hlt, -, hf, hs⟩ | hs
  · rw [hs]; exact sendQueuedAck_framesOk hinv h
  · rw [hs]; exact retransmit_framesOk h now
  · obtain ⟨hid, -, hc⟩ := firstEligible_some s id c hf
    rw [hs]; exact buildNew_framesOk h now id c hid hc hlt
  · rwa [hs]

theorem Effect.framesOk {p : Port} {s t : State} (he : Effect p s t) (hp : p ≠ .test) (hinv : s.Inv) (h : s.FramesOk) :
    t.FramesOk := by
  cases he with
  | outside | setChannel | setSyncCount | pushAck | pushData | flushAck | flushData => exact { h with }
  | schedReset => exact schedReset_framesOk s
  | schedAck seq => exact schedAck_framesOk h seq
  | ackXfer seq => exact ackXfer_framesOk hinv h seq
  | getNext now => exact getNext_framesOk hinv h now
  | encodeAck test => exact absurd test hp
  | encodeData test => exact absurd test hp

/-- Settles O10: together with the ranges, which bound the queues, every elementary effect off the test port keeps the
frames. -/
theorem everyStepKeepsTheFrames : Obligations.EveryStepKeepsTheFrames := by
  intro s t hinv hframes hport hstep
  have h : t.Inv ∧ t.FramesOk :=
    step_keeps (P := fun u => u.Inv ∧ u.FramesOk) hstep
      (fun r hr _ _ he hu => ⟨he.inv hu.1, he.framesOk (hport r hr) hu.1 hu.2⟩)
      (fun _ hu => ⟨{ hu.1 with }, { hu.2 with }⟩) ⟨hinv, hframes⟩
  exact h.2

/-! ## The transition to Synchronized (R31, R138, R150) -/

/-- No elementary effect changes `syncSent`. -/
theorem Effect.syncSent_eq {p : Port} {s t : State} (he : Effect p s t) : t.syncSent = s.syncSent := by
  cases he with
  | schedAck seq => rw [schedAck_frame]
  | ackXfer seq => rw [ackXfer_frame]
  | getNext now => rw [getNext_frame]
  | outside | setChannel | setSyncCount | pushAck | pushData | flushAck | flushData | schedReset | encodeAck
  | encodeData => rfl

/-- Every elementary effect only appends to the outbound stream (R55). -/
theorem Effect.tx_grows {p : Port} {s t : State} (he : Effect p s t) : s.link.tx <+: t.link.tx := by
  cases he with
  | outside _ _ _ _ _ _ _ tx => exact tx
  | schedAck seq => rw [schedAck_frame]
  | ackXfer seq => rw [ackXfer_frame]
  | getNext now => rw [getNext_frame]
  | setChannel | setSyncCount | pushAck | pushData | flushAck | flushData | schedReset | encodeAck
  | encodeData => exact ⟨[], List.append_nil _⟩

theorem Effects.syncSent_eq {p : Port} {s t : State} (h : Effects p s t) : t.syncSent = s.syncSent := by
  induction h with
  | refl => rfl
  | tail _ he ih => exact he.syncSent_eq.trans ih

theorem Effects.tx_grows {p : Port} {s t : State} (h : Effects p s t) : s.link.tx <+: t.link.tx := by
  induction h with
  | refl => exact ⟨[], List.append_nil _⟩
  | tail _ he ih => exact ih.trans he.tx_grows

/-- Settles O12: elementary effects leave `syncSent` alone, so a step that sets it makes the transition of `TASK` or
`SYNCBURST`, which the burst goes before. -/
theorem synchronizedOnceAndForAll : Obligations.SynchronizedOnceAndForAll := by
  intro s t hstep
  rcases step_cases s t hstep with rfl | ⟨r, hr, he | ⟨hdec, _, ⟨hs, u, -, htx, rfl⟩, he⟩⟩
  · exact ⟨id, fun hf ht => absurd (hf.symm.trans ht) (by decide)⟩
  · rw [he.syncSent_eq]
    exact ⟨id, fun hf ht => absurd (hf.symm.trans ht) (by decide)⟩
  · refine ⟨fun ht => absurd (hs.symm.trans ht) (by decide), fun _ _ => ⟨?_, r, hr, hdec⟩⟩
    obtain ⟨rest, hrest⟩ := he.tx_grows
    exact ⟨rest, hrest.symm.trans (congrArg (· ++ rest) htx)⟩

/-! ## The decoders' CRC (R14, R90, R91) -/

theorem crcOver_append_singleton (c : Word) (bs : List Byte) (b : Byte) :
    crcOver c (bs ++ [b]) = crcStep (crcOver c bs) b := by
  simp [crcOver]

theorem empty_crcOk : CodecBuf.empty.CrcOk := rfl

/-- A push that completes a byte adds it to the CRC; one that does not leaves the complete bytes alone. -/
theorem decPush_crcOk (k : Kind) (D : CodecBuf) (e : Byte) (hok : D.DecOk k) (h : D.CrcOk) : (D.decPush k e).CrcOk := by
  have hlen : (D.bytes.take D.count).length = D.count := by simp [hok.count_le]
  have hcompletes : ∀ (b : Byte) (seed : List Byte) (step : Nat),
      CodecBuf.CrcOk ⟨D.bytes.take D.count ++ b :: seed, D.count + 1, step, crcStep D.crc b⟩ := by
    intro b seed step
    have htake : (D.bytes.take D.count ++ b :: seed).take (D.count + 1) = D.bytes.take D.count ++ [b] := by
      rw [List.take_append, hlen]
      simp
    unfold CodecBuf.CrcOk at *
    simp only [htake, crcOver_append_singleton, ← h]
  unfold CodecBuf.decPush
  dsimp only
  split
  · split
    · unfold CodecBuf.CrcOk at *
      simp only [List.take_left' hlen]
      exact h
    · split
      · exact hcompletes _ _ _
      · exact hcompletes _ _ _
  · exact h

theorem Effect.crcOk {p : Port} {s t : State} (he : Effect p s t) (hinv : s.Inv)
    (h : s.rxAck.CrcOk ∧ s.rxData.CrcOk) : t.rxAck.CrcOk ∧ t.rxData.CrcOk := by
  cases he with
  | pushAck b => exact ⟨decPush_crcOk _ _ b hinv.rxAck h.1, h.2⟩
  | pushData b => exact ⟨h.1, decPush_crcOk _ _ b hinv.rxData h.2⟩
  | flushAck => exact ⟨empty_crcOk, h.2⟩
  | flushData => exact ⟨h.1, empty_crcOk⟩
  | schedAck seq => rw [schedAck_frame]; exact h
  | ackXfer seq => rw [ackXfer_frame]; exact h
  | getNext now => rw [getNext_frame]; exact h
  | outside | setChannel | setSyncCount | schedReset | encodeAck | encodeData => exact h

/-- Settles O11: together with the ranges, every elementary effect keeps the CRC of both decoders. -/
theorem everyStepKeepsTheDecodersCrc : Obligations.EveryStepKeepsTheDecodersCrc := by
  intro s t hinv hack hdata hstep
  have h : t.Inv ∧ t.rxAck.CrcOk ∧ t.rxData.CrcOk :=
    step_keeps (P := fun u => u.Inv ∧ u.rxAck.CrcOk ∧ u.rxData.CrcOk) hstep
      (fun _ _ _ _ he hu => ⟨he.inv hu.1, he.crcOk hu.1 hu.2⟩)
      (fun _ hu => ⟨{ hu.1 with }, hu.2⟩) ⟨hinv, hack, hdata⟩
  exact h.2

/-! ## Reset (R35, R180) -/

theorem channel_reset (id : Nat) : State.reset.channel id = none := by
  by_cases hid : id < 8
  · simp [State.channel, State.reset, hid]
  · exact channel_none_of_ge _ _ (by omega)

theorem ackQ_slots_reset (i : Fin 3) : State.reset.ackQ.slots[i] = CodecBuf.empty := by
  simp [State.reset]

theorem win_slots_reset (i : Fin 3) : State.reset.win.slots[i] = WinEntry.reset := by
  simp [State.reset]

/-- Settles O6: reset's fields as written, and no transaction pending. -/
theorem resetStateIsAsSpecified : Obligations.ResetStateIsAsSpecified :=
  ⟨channel_reset, rfl, rfl, rfl, rfl, rfl, ackQ_slots_reset, rfl,
    fun i => congrArg WinEntry.frame (win_slots_reset i), rfl, rfl, rfl, rfl⟩

theorem reset_inv : State.reset.Inv where
  rxAck := empty_decOk _
  rxData := empty_decOk _
  ackSlots i := by rw [ackQ_slots_reset]; exact empty_encOk _
  winSlots i := by rw [win_slots_reset]; exact empty_encOk _
  ackLen := Nat.zero_le _
  winLen := Nat.zero_le _
  queues id c h := by simp [channel_reset] at h
  syncCount := by decide

theorem reset_framesOk : State.reset.FramesOk :=
  ⟨fun _ hi => absurd hi (Nat.not_lt_zero _), fun _ hi => absurd hi (Nat.not_lt_zero _)⟩

/-- Settles O8: every buffer is flushed, and no entry is live. -/
theorem resetMeetsTheInvariants : Obligations.ResetMeetsTheInvariants := ⟨reset_inv, reset_framesOk⟩

end Sys2Proof.Machine

/-! ## A step runs the next transaction (R46, R50, R175) -/

namespace Sys2Proof.Machine

theorem takeRequest_of_requests {s : State} {r : Request} {rest : List Request} (h : s.requests = r :: rest) :
    s.takeRequest = { s with requests := rest } := by
  simp [State.takeRequest, h]

theorem step_of_decode_ok {s : State} {r : Request} {rest : List Request} {i : Instr} (h : s.requests = r :: rest)
    (hdec : decode r = .ok i) : step s = exec i { s with requests := rest } := by
  simp [step, h, hdec, takeRequest_of_requests h]

theorem step_of_decode_error {s : State} {r : Request} {rest : List Request} {e : DecodeError}
    (h : s.requests = r :: rest) (hdec : decode r = .error e) :
    step s = .next ({ s with requests := rest }.rejectRequest r.port) := by
  simp [step, h, hdec, takeRequest_of_requests h]

theorem step_of_idle {s : State} (h : s.requests = []) : step s = .next s := by
  simp [step, h]

theorem rejectRequest_eq (s : State) (p : Port) : s.rejectRequest p = if p = .wire then s else s.refuse := by
  cases p with
  | host => rfl
  | test => rfl
  | wire => rfl

/-- Settles O5: the three cases of a step. -/
theorem stepRunsDecodedRequest : Obligations.StepRunsDecodedRequest := by
  refine ⟨fun _ _ _ _ h hdec => step_of_decode_ok h hdec, fun s r rest e h hdec => ?_, fun _ h => step_of_idle h⟩
  rw [step_of_decode_error h hdec, rejectRequest_eq]
  rfl

/-! ## The in-flight frames (R53, R122, R134) -/

/-- Every entry in flight in the window `w` is in flight in `w'` at the same place, with the same bytes. -/
structure FramesStay (w w' : Fifo WinEntry) : Prop where
  len_le : w.len ≤ w'.len
  frame_eq : ∀ j : Fin 3, j.val < w.len → w'.slots[j].frame = w.slots[j].frame

theorem FramesStay.refl (w : Fifo WinEntry) : FramesStay w w := ⟨Nat.le_refl _, fun _ _ => rfl⟩

theorem FramesStay.of_eq {w w' : Fifo WinEntry} (h : w' = w) : FramesStay w w' := h ▸ .refl w

theorem retransmit_framesStay (s : State) (now : Time) : FramesStay s.win (s.retransmit now).2.win :=
  ⟨Nat.le_refl _, fun j _ => retransmit_frame_eq s now j⟩

/-- A new frame goes into a free slot. -/
theorem push_framesStay (w : Fifo WinEntry) (hlt : w.len < 3) (x : WinEntry) :
    FramesStay w (w.push ⟨w.len, hlt⟩ x) := by
  refine ⟨Nat.le_succ _, fun j hj => ?_⟩
  have hfree : (⟨w.len, hlt⟩ : Fin 3) ≠ j := fun h => by simp [← h] at hj
  rw [push_slot, if_neg hfree]

theorem getNext_framesStay (s : State) (now : Time) : FramesStay s.win (s.getNext now).2.win := by
  rcases getNext_cases s now with ⟨-, hs⟩ | ⟨-, -, -, hs⟩ | ⟨id, c, hlt, -, -, hs⟩ | hs
  · rw [hs]; exact .refl _
  · rw [hs]; exact retransmit_framesStay s now
  · rw [hs]; exact push_framesStay s.win hlt _
  · rw [hs]; exact .refl _

theorem scheduleFrame_framesStay (s : State) : FramesStay s.win s.scheduleFrame.win := by
  have hnext := getNext_framesStay { s with link := s.link.askNow.2 } s.link.askNow.1
  unfold State.scheduleFrame
  dsimp only
  split
  · exact hnext
  · exact hnext

theorem txStep_framesStay (s : State) : FramesStay s.win s.txStep.win := by
  unfold State.txStep
  dsimp only
  split
  · exact scheduleFrame_framesStay { s with link := s.link.askLevel.2 }
  · exact .refl _

theorem onChannel_win (s : State) (id : Byte) (f : Channel → State) (h : ∀ c, (f c).win = s.win) :
    (s.onChannel id f).win = s.win := by
  unfold State.onChannel
  split
  · rfl
  · exact h _

@[simp] theorem answerFrame_win (s : State) (f : Option Frame) : (s.answerFrame f).win = s.win := by
  cases f with
  | none => rfl
  | some f => rfl

theorem exec_framesStay (i : Instr) (s t : State) (hi : mayTouchFrames i = false) (h : exec i s = .next t) :
    FramesStay s.win t.win := by
  cases i with
  | ackx | sreset | resync | wSync | wEoa | rxbyte | rxdrain | task | syncburst | encDPush | encDPush32 | encDEnd
  | encDFlush => cases hi
  | wData | wAck | wGarbage | getnack | encAPush | encAPush32 | encAEnd | encAFlush | decAPush | decAFlush | decDPush
  | decDFlush | isSync | isEoa | isEod | isAck | isData | crc32Step => cases h; exact .refl _
  | openSlot | decodeA | decodeD =>
    cases h
    split
    · exact .refl _
    · exact .refl _
  | send | setrx | txsize | txspace | txflush => cases h; exact .of_eq (onChannel_win _ _ _ fun _ => rfl)
  | closeSlot id =>
    cases h
    cases id with
    | none => exact .refl _
    | some id => exact .of_eq (onChannel_win _ _ _ fun _ => rfl)
  | wEod => cases h; exact .of_eq (by rw [rxEndOfData_frame]; rfl)
  | schedack seq => cases h; exact .of_eq (by rw [schedAck_frame]; rfl)
  | getnext now => cases h; rw [answerFrame_win]; exact getNext_framesStay s now
  | txstep => cases h; exact txStep_framesStay s

/-- Settles O15: of the instructions spoken of, only `GETNEXT` and `TXSTEP` write the window: they build in a free slot,
or re-arm a deadline (R122). -/
theorem inFlightFramesStay : Obligations.InFlightFramesStay := by
  intro i s t hi h
  have hstay := exec_framesStay i s t hi h
  exact ⟨hstay.len_le, hstay.frame_eq⟩

end Sys2Proof.Machine

/-! ## The nested commands (R52, R165, R166) -/

namespace Sys2Proof.Machine

theorem nestedCmd_of_mayNest {s : State} {bs : List Byte} {i : Instr} (h : decode ⟨.host, bs⟩ = .ok i)
    (hi : mayNest i = true) : exec i s = .next (s.nestedCmd bs) := by
  have hdec : decodeCmdOn .host bs = .ok i := h
  unfold State.nestedCmd
  rw [hdec]
  cases i with
  | send | setrx | txsize | txspace | txflush | getnack => rfl
  | _ => cases hi

/-- Refused with no effect: what is none of the six commands takes none of their arms (R73, D35). -/
theorem nestedCmd_of_not_mayNest {s : State} {bs : List Byte}
    (h : ∀ i, decode ⟨.host, bs⟩ = .ok i → mayNest i = false) :
    s.nestedCmd bs = s.refuse := by
  unfold State.nestedCmd
  split
  · cases h _ ‹_›
  · cases h _ ‹_›
  · cases h _ ‹_›
  · cases h _ ‹_›
  · cases h _ ‹_›
  · cases h _ ‹_›
  · rfl

/-- The two states agree on what a nested command reads and writes. -/
structure SameForNesting (s t : State) : Prop where
  chan : s.chan = t.chan
  answers : s.answers = t.answers
  nackCount : s.nackCount = t.nackCount

section sameForNesting

variable {s t u : State}

theorem SameForNesting.trans (h : SameForNesting s t) (hu : SameForNesting t u) : SameForNesting s u :=
  ⟨h.chan.trans hu.chan, h.answers.trans hu.answers, h.nackCount.trans hu.nackCount⟩

theorem SameForNesting.answer (h : SameForNesting s t) (st : Status) (v : Value) :
    SameForNesting (s.answer st v) (t.answer st v) :=
  ⟨h.chan, by simp [h.answers], h.nackCount⟩

theorem SameForNesting.setChannel (h : SameForNesting s t) (id : Nat) (c : Option Channel) :
    SameForNesting (s.setChannel id c) (t.setChannel id c) :=
  ⟨congrArg (·.setIfInBounds id c) h.chan, h.answers, h.nackCount⟩

theorem SameForNesting.onChannel (h : SameForNesting s t) (id : Byte) {f g : Channel → State}
    (hfg : ∀ c, SameForNesting (f c) (g c)) : SameForNesting (s.onChannel id f) (t.onChannel id g) := by
  unfold State.onChannel
  rw [channel_congr t s h.chan]
  split
  · exact h.answer _ _
  · exact hfg _

theorem SameForNesting.nestedCmd (h : SameForNesting s t) (bs : List Byte) :
    SameForNesting (s.nestedCmd bs) (t.nestedCmd bs) := by
  unfold State.nestedCmd
  split
  · exact h.onChannel _ fun c => (h.setChannel _ _).answer _ _
  · exact h.onChannel _ fun c => (h.setChannel _ _).answer _ _
  · exact h.onChannel _ fun _ => h.answer _ _
  · exact h.onChannel _ fun _ => h.answer _ _
  · exact h.onChannel _ fun c => (h.setChannel _ _).answer _ _
  · unfold State.getnackCmd
    rw [h.nackCount]
    exact h.answer _ _
  · exact h.answer _ _

theorem SameForNesting.foldl (h : SameForNesting s t) (cmds : List (List Byte)) :
    SameForNesting (cmds.foldl State.nestedCmd s) (cmds.foldl State.nestedCmd t) := by
  induction cmds generalizing s t with
  | nil => exact h
  | cons c cmds ih => exact ih (h.nestedCmd c)

end sameForNesting

@[simp] theorem schedAck_chan (s : State) (seq : Byte) : (s.schedAck seq).chan = s.chan := by rw [schedAck_frame]

@[simp] theorem schedAck_rxData (s : State) (seq : Byte) : (s.schedAck seq).rxData = s.rxData := by rw [schedAck_frame]

@[simp] theorem schedAck_expectedSeq (s : State) (seq : Byte) : (s.schedAck seq).expectedSeq = s.expectedSeq := by
  rw [schedAck_frame]

@[simp] theorem schedAck_answers (s : State) (seq : Byte) : (s.schedAck seq).answers = s.answers := by
  rw [schedAck_frame]

@[simp] theorem schedAck_nackCount (s : State) (seq : Byte) : (s.schedAck seq).nackCount = s.nackCount := by
  rw [schedAck_frame]

@[simp] theorem schedAck_nested (s : State) (seq : Byte) : (s.schedAck seq).nested = s.nested := by
  rw [schedAck_frame]

theorem dataFrameValid_iff (D : CodecBuf) : dataFrameValid D = true ↔ D.crc = 0 ∧ 6 < D.count := by
  simp [dataFrameValid, dataMinLen, Nat.succ_le_iff]

theorem receiver_of_channel {s : State} {id : Nat} {c : Channel} {rx : Receiver} (hc : s.channel id = some c)
    (hrx : c.rx = some rx) : s.receiver id = some rx := by
  simp [State.receiver, hc, hrx]

theorem deliverPayload_of_receiver {s : State} {rx : Receiver} (h : s.receiver (s.rxData.get 1).toNat = some rx) :
    s.deliverPayload = s.deliver (s.rxData.get 1) rx s.rxPayload := by
  simp [State.deliverPayload, h]

/-- The payload of a valid frame in sequence is delivered, or dropped, when its ACK is queued (R145). -/
theorem rxEndOfData_of_inSequence {s : State} (hvalid : dataFrameValid s.rxData = true)
    (hseq : s.rxData.get 0 = s.expectedSeq) :
    s.rxEndOfData =
      { (s.schedAck s.expectedSeq).acceptInSequence with rxData := CodecBuf.empty } := by
  simp [State.rxEndOfData, State.acceptData, hvalid, hseq]

/-- The event itself is nothing that a nested command sees (R165). -/
theorem deliver_runs_nested {s : State} {cmds : List (List Byte)} {rest : List (List (List Byte))} (ch : Byte)
    (rx : Receiver) (payload : List Byte) (h : s.nested = cmds :: rest) :
    SameForNesting (s.deliver ch rx payload) (cmds.foldl State.nestedCmd s) := by
  have hentry : SameForNesting { s.deliverEntry ch rx payload with nested := rest } s := ⟨rfl, rfl, rfl⟩
  unfold State.deliver State.deliverReturn
  simp only [deliverEntry_nested, h]
  exact hentry.foldl cmds

theorem acceptInSequence_runs_nested {s : State} {rx : Receiver} {cmds : List (List Byte)}
    {rest : List (List (List Byte))} (hrx : s.receiver (s.rxData.get 1).toNat = some rx) (h : s.nested = cmds :: rest) :
    SameForNesting s.acceptInSequence (cmds.foldl State.nestedCmd s) := by
  have hdeliver := deliver_runs_nested (s.rxData.get 1) rx s.rxPayload h
  rw [State.acceptInSequence, deliverPayload_of_receiver hrx]
  exact ⟨hdeliver.chan, hdeliver.answers, hdeliver.nackCount⟩

/-- At the end of a valid frame in sequence for a registered receiver the nested commands run on what the queueing of the
ACK leaves, and what they do stays. -/
theorem rxEndOfData_runs_nested {s : State} {c : Channel} {rx : Receiver} {cmds : List (List Byte)}
    {rest : List (List (List Byte))} (hvalid : dataFrameValid s.rxData = true)
    (hseq : s.rxData.get 0 = s.expectedSeq) (hc : s.channel (s.rxData.get 1).toNat = some c) (hrx : c.rx = some rx)
    (hnested : s.nested = cmds :: rest) :
    SameForNesting s.rxEndOfData (cmds.foldl State.nestedCmd (s.schedAck s.expectedSeq)) := by
  have hchannel : (s.schedAck s.expectedSeq).channel ((s.schedAck s.expectedSeq).rxData.get 1).toNat = some c := by
    rw [schedAck_rxData, channel_congr _ _ (schedAck_chan s _), hc]
  have haccept := acceptInSequence_runs_nested (receiver_of_channel hchannel hrx)
    ((schedAck_nested s s.expectedSeq).trans hnested)
  rw [rxEndOfData_of_inSequence hvalid hseq]
  exact ⟨haccept.chan, haccept.answers, haccept.nackCount⟩

/-- Settles O54: a nested command is the command's own meaning or a refusal, and it reads nothing that the ACK, the event
and the run of SYNC bytes change. -/
theorem nestedCommandsRunInTheDelivery : Obligations.NestedCommandsRunInTheDelivery := by
  refine ⟨fun _ _ _ h hi => nestedCmd_of_mayNest h hi, fun _ _ h => nestedCmd_of_not_mayNest h, ?_⟩
  intro s t c rx cmds rest hcrc hcount hseq hc hrx hnested ht
  cases ht
  refine ⟨_, _, rfl, rfl, ?_⟩
  have hrun : SameForNesting s.endSyncRun.rxEndOfData
      (cmds.foldl State.nestedCmd (s.endSyncRun.schedAck s.expectedSeq)) :=
    rxEndOfData_runs_nested ((dataFrameValid_iff _).2 ⟨hcrc, hcount⟩) hseq hc hrx hnested
  have hack : SameForNesting (s.endSyncRun.schedAck s.expectedSeq)
      { (s.schedAck s.expectedSeq).outcome s.ackRoom with answers := s.answers } :=
    ⟨by simp [State.outcome], by simp, by simp [State.outcome]⟩
  have hsame := hrun.trans (hack.foldl cmds)
  exact ⟨hsame.chan, hsame.answers⟩

end Sys2Proof.Machine

/-! ## The outputs (R55, R72, R148) -/

namespace Sys2Proof.Machine

/-- What `s` has answered and delivered stands, in order, at the head of what `t` has. The outbound stream is
`Effects.tx_grows`. -/
def State.ReportsOn (s t : State) : Prop := s.answers <+: t.answers ∧ s.delivered <+: t.delivered

section reportsOn

variable {s t u : State}

theorem State.ReportsOn.of_eq (ha : t.answers = s.answers) (hd : t.delivered = s.delivered) : s.ReportsOn t :=
  ⟨ha ▸ List.prefix_rfl, hd ▸ List.prefix_rfl⟩

theorem State.ReportsOn.refl (s : State) : s.ReportsOn s := .of_eq rfl rfl

theorem State.ReportsOn.trans (h : s.ReportsOn t) (hu : t.ReportsOn u) : s.ReportsOn u :=
  ⟨h.1.trans hu.1, h.2.trans hu.2⟩

theorem State.ReportsOn.of_append {a : List Answer} (ha : t.answers = s.answers ++ a)
    (hd : t.delivered = s.delivered) : s.ReportsOn t :=
  ⟨ha ▸ List.prefix_append _ _, hd ▸ List.prefix_rfl⟩

theorem State.ReportsOn.answer (h : s.ReportsOn t) (st : Status) (v : Value) : s.ReportsOn (t.answer st v) :=
  h.trans (.of_append rfl rfl)

theorem foldl_reportsOn {α : Type} {f : State → α → State} (h : ∀ (s : State) (a : α), s.ReportsOn (f s a))
    (as : List α) (s : State) : s.ReportsOn (as.foldl f s) := by
  induction as generalizing s with
  | nil => exact .refl s
  | cons a as ih => exact (h s a).trans (ih (f s a))

/-! ### Channel commands and the delivery -/

theorem onChannel_reportsOn (id : Byte) {f : Channel → State} (h : ∀ c, s.ReportsOn (f c)) :
    s.ReportsOn (s.onChannel id f) := by
  unfold State.onChannel
  split
  · exact .of_append rfl rfl
  · exact h _

theorem nestedCmd_reportsOn (s : State) (bs : List Byte) : s.ReportsOn (s.nestedCmd bs) := by
  unfold State.nestedCmd
  split
  · exact onChannel_reportsOn _ fun _ => .of_append rfl rfl
  · exact onChannel_reportsOn _ fun _ => .of_append rfl rfl
  · exact onChannel_reportsOn _ fun _ => .of_append rfl rfl
  · exact onChannel_reportsOn _ fun _ => .of_append rfl rfl
  · exact onChannel_reportsOn _ fun _ => .of_append rfl rfl
  · exact .of_append rfl rfl
  · exact .of_append rfl rfl

theorem deliverReturn_reportsOn (s : State) : s.ReportsOn s.deliverReturn := by
  unfold State.deliverReturn
  split
  · exact .refl s
  · next cmds rest _ => exact foldl_reportsOn nestedCmd_reportsOn cmds { s with nested := rest }

theorem deliver_reportsOn (s : State) (ch : Byte) (rx : Receiver) (payload : List Byte) :
    s.ReportsOn (s.deliver ch rx payload) :=
  have hentry : s.ReportsOn (s.deliverEntry ch rx payload) := ⟨List.prefix_rfl, List.prefix_append _ _⟩
  hentry.trans (deliverReturn_reportsOn _)

/-! ### Inbound bytes -/

theorem deliverPayload_reportsOn (s : State) : s.ReportsOn s.deliverPayload := by
  unfold State.deliverPayload
  split
  · exact deliver_reportsOn ..
  · exact .refl s

theorem schedAck_reportsOn (s : State) (seq : Byte) : s.ReportsOn (s.schedAck seq) :=
  .of_eq (by rw [schedAck_frame]) (by rw [schedAck_frame])

theorem acceptData_reportsOn (s : State) : s.ReportsOn s.acceptData := by
  have hack := schedAck_reportsOn s (s.rxData.get 0)
  unfold State.acceptData
  dsimp only
  split
  · exact hack.trans (deliverPayload_reportsOn _)
  · exact hack

theorem rxEndOfData_reportsOn (s : State) : s.ReportsOn s.rxEndOfData := by
  unfold State.rxEndOfData
  dsimp only
  split
  · exact acceptData_reportsOn s
  · exact .of_eq rfl rfl

theorem rxSync_reportsOn (s : State) : s.ReportsOn s.rxSync :=
  .of_eq (by rw [rxSync_frame]) (by rw [rxSync_frame])

theorem rxEndOfAck_reportsOn (s : State) : s.ReportsOn s.rxEndOfAck :=
  .of_eq (by rw [rxEndOfAck_frame]) (by rw [rxEndOfAck_frame])

theorem rxByte_reportsOn (s : State) (b : Byte) : s.ReportsOn (s.rxByte b) := by
  unfold State.rxByte
  dsimp only
  split
  · exact rxSync_reportsOn s
  · split
    · exact .of_eq rfl rfl
    · split
      · exact rxEndOfAck_reportsOn s.endSyncRun
      · split
        · exact .of_eq rfl rfl
        · split
          · exact rxEndOfData_reportsOn s.endSyncRun
          · exact .of_eq rfl rfl

theorem drainLoop_reportsOn (inbound : List (List Byte)) (s : State) : s.ReportsOn (State.drainLoop inbound s) := by
  induction inbound generalizing s with
  | nil => exact .of_eq rfl rfl
  | cons bs rest ih =>
    cases bs with
    | nil => exact .of_eq rfl rfl
    | cons b bs => exact (foldl_reportsOn rxByte_reportsOn (b :: bs) s).trans (ih _)

/-! ### The transmit side -/

theorem syncBurstStep_reportsOn (s : State) : s.ReportsOn s.syncBurstStep := by
  unfold State.syncBurstStep
  dsimp only
  split
  · exact .refl s
  · split
    · exact .of_eq rfl rfl
    · exact .of_eq rfl rfl

theorem getNext_reportsOn (s : State) (now : Time) : s.ReportsOn (s.getNext now).2 :=
  .of_eq (by rw [getNext_frame]) (by rw [getNext_frame])

theorem scheduleFrame_reportsOn (s : State) : s.ReportsOn s.scheduleFrame := by
  have hnext := getNext_reportsOn { s with link := s.link.askNow.2 } s.link.askNow.1
  unfold State.scheduleFrame
  dsimp only
  split
  · exact hnext
  · exact hnext

theorem txStep_reportsOn (s : State) : s.ReportsOn s.txStep := by
  unfold State.txStep
  dsimp only
  split
  · exact scheduleFrame_reportsOn { s with link := s.link.askLevel.2 }
  · exact .of_eq rfl rfl

theorem taskStep_reportsOn (s : State) : s.ReportsOn s.taskStep := by
  have hburst := syncBurstStep_reportsOn s
  unfold State.taskStep
  dsimp only
  split
  · exact (hburst.trans (drainLoop_reportsOn _ _)).trans (txStep_reportsOn _)
  · exact hburst

end reportsOn

/-! ### Instructions and steps -/

theorem exec_reportsOn (i : Instr) (s t : State) (h : exec i s = .next t) : s.ReportsOn t := by
  cases i with
  | wData | wAck | wGarbage => cases h; exact .of_eq rfl rfl
  | wSync => cases h; exact rxSync_reportsOn s
  | wEoa => cases h; exact rxEndOfAck_reportsOn s.endSyncRun
  | wEod => cases h; exact rxEndOfData_reportsOn s.endSyncRun
  | closeSlot id =>
    cases h
    cases id with
    | none => exact .of_append rfl rfl
    | some id => exact onChannel_reportsOn _ fun _ => .of_append rfl rfl
  | send | setrx | txflush | txsize | txspace => cases h; exact onChannel_reportsOn _ fun _ => .of_append rfl rfl
  | openSlot | decodeA | decodeD =>
    cases h
    split
    · exact .of_append rfl rfl
    · exact .of_append rfl rfl
  | encAPush | encAPush32 | encAEnd | encAFlush | encDPush | encDPush32 | encDEnd | encDFlush | decAPush | decAFlush
  | decDPush | decDFlush | isSync | isEoa | isEod | isAck | isData | crc32Step | sreset | resync | getnack =>
    cases h; exact .of_append rfl rfl
  | getnext now =>
    cases h
    have hnext := getNext_reportsOn s now
    unfold State.answerFrame
    split
    · exact hnext.answer _ _
    · exact hnext.answer _ _
  | ackx seq =>
    cases h
    have hack : s.ReportsOn (s.ackXfer seq) := .of_eq (by rw [ackXfer_frame]) (by rw [ackXfer_frame])
    exact hack.answer _ _
  | schedack seq => cases h; exact (schedAck_reportsOn s seq).answer _ _
  | syncburst => cases h; exact (syncBurstStep_reportsOn s).answer _ _
  | rxdrain =>
    simp only [exec, execRxdrain] at h
    split at h
    · cases h
    · cases h; exact (drainLoop_reportsOn _ s).answer _ _
  | task =>
    simp only [exec, execTask] at h
    split at h
    · cases h
    · cases h; exact (taskStep_reportsOn s).answer _ _
  | rxbyte b => cases h; exact (rxByte_reportsOn s b).answer _ _
  | txstep => cases h; exact (txStep_reportsOn s).answer _ _

theorem step_reportsOn (s t : State) (h : step s = .next t) : s.ReportsOn t := by
  cases hreq : s.requests with
  | nil =>
    rw [step_of_idle hreq] at h
    cases h
    exact .refl s
  | cons r rest =>
    have htake : s.ReportsOn { s with requests := rest } := .of_eq rfl rfl
    cases hdec : decode r with
    | ok i =>
      rw [step_of_decode_ok hreq hdec] at h
      exact htake.trans (exec_reportsOn i _ t h)
    | error e =>
      rw [step_of_decode_error hreq hdec, rejectRequest_eq] at h
      cases h
      split
      · exact htake
      · exact htake.answer _ _

theorem step_tx_grows (s t : State) (h : step s = .next t) : s.link.tx <+: t.link.tx :=
  step_keeps (P := fun u => s.link.tx <+: u.link.tx) h (fun _ _ _ _ he hu => hu.trans he.tx_grows) (fun _ hu => hu)
    List.prefix_rfl

/-- Settles O13: answers and deliveries by the meaning of each instruction, the outbound stream by its elementary
effects. -/
theorem outputsOnlyGrow : Obligations.OutputsOnlyGrow := by
  intro s t h
  obtain ⟨⟨a, ha⟩, d, hd⟩ := step_reportsOn s t h
  obtain ⟨b, hb⟩ := step_tx_grows s t h
  exact ⟨⟨a, ha.symm⟩, ⟨d, hd.symm⟩, b, hb.symm⟩

end Sys2Proof.Machine

/-! ## Decoding and encoding (R60, R70, R71, R73)

A reader of operand bytes has two laws: what it gives on what the encoder writes, and that what it accepts is what the
encoder writes for the value read. The first make decoding after encoding the identity, the second encoding after
decoding. -/

namespace Sys2Proof.Laws

/-! ### Numbers of several bytes -/

/-- The bytes read are the low digits of the number, so dividing them away leaves what was read before. -/
theorem foldl_div_pow (bs : List Byte) (acc : Nat) :
    bs.foldl (fun acc b => acc * 256 + b.toNat) acc / 256 ^ bs.length = acc := by
  induction bs generalizing acc with
  | nil => simp
  | cons b bs ih =>
    have hb : b.toNat < 256 := b.isLt
    rw [List.foldl_cons, List.length_cons, Nat.pow_succ, ← Nat.div_div_eq_div_mul, ih]
    omega

theorem ofBe_lt (bs : List Byte) : ofBe bs < 256 ^ bs.length :=
  (Nat.div_eq_zero_iff_lt (Nat.pow_pos (by decide))).mp (foldl_div_pow bs 0)

/-- Writing back the low digits of a number that ends in the bytes read. -/
theorem beBytes_foldl (bs : List Byte) (acc : Nat) :
    beBytes bs.length (bs.foldl (fun acc b => acc * 256 + b.toNat) acc) = bs := by
  induction bs generalizing acc with
  | nil => rfl
  | cons b bs ih =>
    have hhead : BitVec.ofNat 8 (acc * 256 + b.toNat) = b := by
      apply BitVec.eq_of_toNat_eq
      simp only [BitVec.toNat_ofNat]
      omega
    rw [List.length_cons, List.foldl_cons, beBytes, ih, foldl_div_pow, hhead]

theorem beBytes_ofBe (bs : List Byte) : beBytes bs.length (ofBe bs) = bs := beBytes_foldl bs 0

/-! ### What each reader gives on what the encoder writes -/

section read

variable (r : List Byte)

@[simp] theorem withByte_cons (b : Byte) (f : Byte → List Byte → Decoded (Instr × List Byte)) :
    withByte (b :: r) f = f b r := rfl

@[simp] theorem withBit_bitByte (b : Bool) (f : Bool → List Byte → Decoded (Instr × List Byte)) :
    withBit (bitByte b :: r) f = f b r := by
  cases b with
  | false => rfl
  | true => rfl

theorem withBytes_of_length_eq {n : Nat} {bs : List Byte} (h : bs.length = n)
    (f : List Byte → List Byte → Decoded (Instr × List Byte)) : withBytes n bs f = f bs [] := by
  simp [withBytes, ← h]

@[simp] theorem toNat_slotByte (e : Fin 3) : (slotByte e).toNat = e.val := by
  have he := e.isLt
  simp only [slotByte, BitVec.toNat_ofNat]
  omega

@[simp] theorem withEncoder_slotByte (e : Fin 3) (f : Fin 3 → List Byte → Decoded (Instr × List Byte)) :
    withEncoder (slotByte e :: r) f = f e r := by
  simp [withEncoder]

/-- A number that fits its bytes is read back unchanged. -/
theorem withNum_beBytes_of_lt {n v : Nat} (hv : v < 256 ^ n) (f : Nat → List Byte → Decoded (Instr × List Byte)) :
    withNum n (beBytes n v ++ r) f = f v r := by
  rw [withNum_beBytes, Nat.mod_eq_of_lt hv]

/-- A word of `w` bits read back from as many bytes as just hold it. -/
@[simp] theorem withNum_beBytes_toNat {n w : Nat} (hw : 256 ^ n = 2 ^ w) (v : BitVec w)
    (f : Nat → List Byte → Decoded (Instr × List Byte)) : withNum n (beBytes n v.toNat ++ r) f = f v.toNat r :=
  withNum_beBytes_of_lt r (hw ▸ v.isLt) f

/-- A word read back where nothing stands behind it. -/
@[simp] theorem withNum_last_beBytes_toNat {n w : Nat} (hw : 256 ^ n = 2 ^ w) (v : BitVec w)
    (f : Nat → List Byte → Decoded (Instr × List Byte)) : withNum n (beBytes n v.toNat) f = f v.toNat [] := by
  simpa using withNum_beBytes_toNat [] hw v f

end read

/-! ### What each reader accepts -/

section accept

variable {r : List Byte} {x : Instr × List Byte}

theorem withByte_eq_ok {f : Byte → List Byte → Decoded (Instr × List Byte)} (h : withByte r f = .ok x) :
    ∃ b rest, r = b :: rest ∧ f b rest = .ok x := by
  cases r with
  | nil => cases h
  | cons b rest => exact ⟨b, rest, rfl, h⟩

theorem withNum_eq_ok {n : Nat} {f : Nat → List Byte → Decoded (Instr × List Byte)} (h : withNum n r f = .ok x) :
    ∃ v rest, v < 256 ^ n ∧ r = beBytes n v ++ rest ∧ f v rest = .ok x := by
  unfold withNum at h
  split at h
  · cases h
  · next hlen =>
    have htake : (r.take n).length = n := List.length_take_of_le (Nat.le_of_not_lt hlen)
    have hlt := ofBe_lt (r.take n)
    have hbytes := beBytes_ofBe (r.take n)
    rw [htake] at hlt hbytes
    exact ⟨_, _, hlt, by rw [hbytes, List.take_append_drop], h⟩

/-- A number whose bytes are just those of a word of `w` bits is such a word. -/
theorem withNum_eq_ok_bitVec {n w : Nat} (hw : 256 ^ n = 2 ^ w) {f : Nat → List Byte → Decoded (Instr × List Byte)}
    (h : withNum n r f = .ok x) :
    ∃ (v : BitVec w) (rest : List Byte), r = beBytes n v.toNat ++ rest ∧ f v.toNat rest = .ok x := by
  obtain ⟨v, rest, hlt, hr, hv⟩ := withNum_eq_ok h
  exact ⟨⟨v, hw ▸ hlt⟩, rest, hr, hv⟩

theorem withBytes_eq_ok {n : Nat} {f : List Byte → List Byte → Decoded (Instr × List Byte)}
    (h : withBytes n r f = .ok x) : ∃ bs rest, bs.length = n ∧ r = bs ++ rest ∧ f bs rest = .ok x := by
  unfold withBytes at h
  split at h
  · cases h
  · next hlen =>
    exact ⟨_, _, List.length_take_of_le (Nat.le_of_not_lt hlen), (List.take_append_drop n r).symm, h⟩

theorem withBit_eq_ok {f : Bool → List Byte → Decoded (Instr × List Byte)} (h : withBit r f = .ok x) :
    ∃ b rest, r = bitByte b :: rest ∧ f b rest = .ok x := by
  obtain ⟨b, rest, rfl, hb⟩ := withByte_eq_ok h
  split at hb
  · next heq => exact ⟨false, rest, by rw [heq]; rfl, hb⟩
  · split at hb
    · next heq => exact ⟨true, rest, by rw [heq]; rfl, hb⟩
    · cases hb

theorem withEncoder_eq_ok {f : Fin 3 → List Byte → Decoded (Instr × List Byte)} (h : withEncoder r f = .ok x) :
    ∃ e rest, r = slotByte e :: rest ∧ f e rest = .ok x := by
  obtain ⟨b, rest, rfl, hb⟩ := withByte_eq_ok h
  split at hb
  · next hlt => exact ⟨⟨b.toNat, hlt⟩, rest, by simp [slotByte], hb⟩
  · cases hb

theorem withDecoder_eq_ok {f : List Byte → Decoded (Instr × List Byte)} (h : withDecoder r f = .ok x) :
    ∃ rest, r = 0x00#8 :: rest ∧ f rest = .ok x := by
  obtain ⟨b, rest, rfl, hb⟩ := withByte_eq_ok h
  split at hb
  · next heq => exact ⟨rest, by rw [heq], hb⟩
  · cases hb

theorem withTag_eq_ok {f : Tag → List Byte → Decoded (Instr × List Byte)} (h : withTag r f = .ok x) :
    ∃ t rest, r = tagToBytes t ++ rest ∧ f t rest = .ok x := by
  obtain ⟨v, rest, -, rfl, ht⟩ := withNum_eq_ok h
  split at ht
  · next hv => exact ⟨_, rest, by rw [tagToBytes, BitVec.toNat_ofNat, Nat.mod_eq_of_lt hv], ht⟩
  · cases ht

/-- Either form of `SETRX`'s operand (R70's `none`, R71's enable bit and two tags). -/
theorem withRx_eq_ok {f : RxOperand → List Byte → Decoded (Instr × List Byte)} (h : withRx r f = .ok x) :
    ∃ rx rest, r = rxToBytes rx ++ rest ∧ f rx rest = .ok x := by
  obtain ⟨enable, r, rfl, hr⟩ := withBit_eq_ok h
  split at hr
  · next hnone =>
    obtain ⟨rfl, rfl⟩ := hnone
    exact ⟨.none, [], rfl, hr⟩
  · obtain ⟨cb, r, rfl, hcb⟩ := withTag_eq_ok hr
    obtain ⟨ctx, r, rfl, hctx⟩ := withTag_eq_ok hcb
    exact ⟨.tags enable ⟨cb, ctx⟩, r, by simp [rxToBytes], hctx⟩

end accept

/-! ### The codes (R70, R73) -/

@[simp] theorem ofCode_code (op : Op) : Op.ofCode op.code = some op := by
  cases op <;> rfl

theorem code_of_ofCode {c : Byte} {op : Op} (h : Op.ofCode c = some op) : op.code = c := by
  simpa using List.find?_some h

@[simp] theorem decodeCmd_code (op : Op) (r : List Byte) : decodeCmd (op.code :: r) = decodeOperands op r := by
  rw [decodeCmd, ofCode_code]

/-! ### The wire byte (R60 to R66) -/

theorem decodeWire_data (d : BitVec 7) : decodeWire (1#1 ++ d) = .wData d := by
  rw [decodeWire, if_pos BitVec.extractLsb'_append_eq_left, BitVec.extractLsb'_append_eq_right]

/-- The uppermost of the two class bits of a byte that is put together from them and six more. -/
theorem upperClassBit_append (t : BitVec 2) (a : BitVec 6) : (t ++ a).extractLsb' 7 1 = t.extractLsb' 1 1 :=
  BitVec.extractLsb'_append_eq_of_le (by decide)

theorem decodeWire_ack (a : BitVec 6) : decodeWire (1#2 ++ a) = .wAck a := by
  have hdata : (1#2 ++ a).extractLsb' 7 1 ≠ 1#1 := by
    rw [upperClassBit_append]
    decide
  rw [decodeWire, if_neg hdata, if_pos BitVec.extractLsb'_append_eq_left, BitVec.extractLsb'_append_eq_right]

theorem low_eq_of_append_eq {t : BitVec 2} {g : BitVec 6} {b : Byte} (h : t ++ g = b) : g = b.extractLsb' 0 6 := by
  rw [← h, BitVec.extractLsb'_append_eq_right]

theorem decodeWire_garbage (g : BitVec 6) (hg : garbageBits g = true) : decodeWire (0#2 ++ g) = .wGarbage g := by
  simp only [garbageBits, Bool.and_eq_true, bne_iff_ne] at hg
  obtain ⟨⟨heoa, heod⟩, hsync⟩ := hg
  have hdata : (0#2 ++ g).extractLsb' 7 1 ≠ 1#1 := by
    rw [upperClassBit_append]
    decide
  have hack : (0#2 ++ g).extractLsb' 6 2 ≠ 1#2 := by
    rw [BitVec.extractLsb'_append_eq_left]
    decide
  rw [decodeWire, if_neg hdata, if_neg hack, if_neg fun h => hsync (low_eq_of_append_eq h),
    if_neg fun h => heoa (low_eq_of_append_eq h), if_neg fun h => heod (low_eq_of_append_eq h),
    BitVec.extractLsb'_append_eq_right]

/-- The class bits of a byte that is neither a data byte nor an ACK byte. -/
theorem classBits_eq_zero {b : Byte} (hdata : b.extractLsb' 7 1 ≠ 1#1) (hack : b.extractLsb' 6 2 ≠ 1#2) :
    b.extractLsb' 6 2 = 0#2 := by
  have hcases : ∀ t : BitVec 2, t.extractLsb' 1 1 ≠ 1#1 → t ≠ 1#2 → t = 0#2 := by decide
  have hsplit : b.extractLsb' 6 2 ++ b.extractLsb' 0 6 = b := BitVec.extractLsb'_append_extractLsb'
  refine hcases _ ?_ hack
  rwa [← upperClassBit_append _ (b.extractLsb' 0 6), hsplit]

/-- What an inbound byte is read as is well-formed, and is written as that byte (R60: every byte is of one class). -/
theorem toBytes_decodeWire (b : Byte) : (decodeWire b).wf = true ∧ (decodeWire b).toBytes = [b] := by
  have hjoin : b.extractLsb' 6 2 ++ b.extractLsb' 0 6 = b := BitVec.extractLsb'_append_extractLsb'
  unfold decodeWire
  split_ifs with hdata hack hsync heoa heod
  · refine ⟨rfl, ?_⟩
    rw [Instr.toBytes, ← hdata, BitVec.extractLsb'_append_extractLsb']
  · refine ⟨rfl, ?_⟩
    rw [Instr.toBytes, ← hack, hjoin]
  · exact ⟨rfl, by rw [hsync]; rfl⟩
  · exact ⟨rfl, by rw [heoa]; rfl⟩
  · exact ⟨rfl, by rw [heod]; rfl⟩
  · rw [classBits_eq_zero hdata hack] at hjoin
    have hne : ∀ g, b ≠ 0#2 ++ g → b.extractLsb' 0 6 ≠ g := fun g hb hg => hb (hg ▸ hjoin.symm)
    refine ⟨?_, by rw [Instr.toBytes, hjoin]⟩
    simp [Instr.wf, garbageBits, hne 0x01#6 heoa, hne 0x02#6 heod, hne 0x2C#6 hsync]

/-! ### Commands, and transactions on a port -/

/-- A command is read back whole, whatever the form of its operands. -/
theorem decodeCmd_toBytes {i : Instr} (hwf : i.wf = true) (hport : i.port ≠ .wire) :
    decodeCmd i.toBytes = .ok (i, []) := by
  cases i with
  | wData | wAck | wSync | wEoa | wEod | wGarbage => exact absurd rfl hport
  | task | getnack | sreset | syncburst | rxdrain | resync | txstep => exact decodeCmd_code _ _
  | openSlot | txsize | txspace | txflush | isSync | isEoa | isEod | isAck | isData | ackx | schedack | rxbyte =>
    exact decodeCmd_code _ _
  | decAPush | decAFlush | decDPush | decDFlush => exact decodeCmd_code _ _
  | encAPush | encDPush | encAEnd | encAFlush | encDEnd | encDFlush => simp [Instr.toBytes, decodeOperands]
  | encAPush32 | encDPush32 | getnext | crc32Step => simp [Instr.toBytes, decodeOperands]
  | closeSlot id =>
    cases id with
    | none => exact decodeCmd_code _ _
    | some id =>
      have hid : id ≠ 0xFF#8 := bne_iff_ne.mp hwf
      simp [Instr.toBytes, decodeOperands, hid]
  | setrx => simp [Instr.toBytes, decodeOperands, withRx_rxToBytes]
  | send id len more data =>
    have hlen : data.length = len.toNat := eq_of_beq hwf
    simp [Instr.toBytes, decodeOperands, withBytes_of_length_eq hlen]
  | decodeA frame n | decodeD frame n =>
    have hlen : frame.length < 256 ^ 2 := of_decide_eq_true hwf
    simp [Instr.toBytes, decodeOperands, withNum_beBytes_of_lt _ hlen, withBytes_of_length_eq]

/-- The operands that a command is read with are in range, and are written as the bytes read. -/
theorem decodeOperands_eq_ok {op : Op} {r rest : List Byte} {i : Instr} (h : decodeOperands op r = .ok (i, rest)) :
    i.wf = true ∧ op.code :: r = i.toBytes ++ rest := by
  unfold decodeOperands at h
  cases op with
  | task | getnack | sreset | syncburst | rxdrain | resync | txstep =>
    cases h
    exact ⟨rfl, rfl⟩
  | openSlot | txsize | txspace | txflush | isSync | isEoa | isEod | isAck | isData | ackx | schedack | rxbyte =>
    obtain ⟨b, _, rfl, hb⟩ := withByte_eq_ok h
    cases hb
    exact ⟨rfl, rfl⟩
  | closeSlot =>
    obtain ⟨id, _, rfl, hid⟩ := withByte_eq_ok h
    cases hid
    by_cases hnone : id = 0xFF#8 <;> simp [Instr.wf, closeOperand, Instr.toBytes, hnone]
  | send =>
    obtain ⟨id, _, rfl, hid⟩ := withByte_eq_ok h
    obtain ⟨len, _, rfl, hlen⟩ := withNum_eq_ok_bitVec (w := 16) rfl hid
    obtain ⟨more, _, rfl, hmore⟩ := withBit_eq_ok hlen
    obtain ⟨data, _, hlength, rfl, hdata⟩ := withBytes_eq_ok hmore
    cases hdata
    simp [Instr.wf, Instr.toBytes, hlength]
  | setrx =>
    obtain ⟨id, _, rfl, hid⟩ := withByte_eq_ok h
    obtain ⟨rx, _, rfl, hrx⟩ := withRx_eq_ok hid
    cases hrx
    exact ⟨rfl, rfl⟩
  | encAPush | encDPush =>
    obtain ⟨e, _, rfl, he⟩ := withEncoder_eq_ok h
    obtain ⟨b, _, rfl, hb⟩ := withByte_eq_ok he
    cases hb
    exact ⟨rfl, rfl⟩
  | encAPush32 | encDPush32 =>
    obtain ⟨e, _, rfl, he⟩ := withEncoder_eq_ok h
    obtain ⟨v, _, rfl, hv⟩ := withNum_eq_ok_bitVec (w := 32) rfl he
    cases hv
    simp [Instr.wf, Instr.toBytes]
  | encAEnd | encAFlush | encDEnd | encDFlush =>
    obtain ⟨e, _, rfl, he⟩ := withEncoder_eq_ok h
    cases he
    exact ⟨rfl, rfl⟩
  | decAPush | decDPush =>
    obtain ⟨_, rfl, hd⟩ := withDecoder_eq_ok h
    obtain ⟨b, _, rfl, hb⟩ := withByte_eq_ok hd
    cases hb
    exact ⟨rfl, rfl⟩
  | decAFlush | decDFlush =>
    obtain ⟨_, rfl, hd⟩ := withDecoder_eq_ok h
    cases hd
    exact ⟨rfl, rfl⟩
  | decodeA | decodeD =>
    obtain ⟨n, _, rfl, hn⟩ := withNum_eq_ok_bitVec (w := 16) rfl h
    obtain ⟨len, _, hlt, rfl, hlen⟩ := withNum_eq_ok hn
    obtain ⟨frame, _, rfl, rfl, hframe⟩ := withBytes_eq_ok hlen
    cases hframe
    exact ⟨decide_eq_true hlt, by simp [Instr.toBytes]⟩
  | crc32Step =>
    obtain ⟨c, _, rfl, hc⟩ := withNum_eq_ok_bitVec (w := 32) rfl h
    obtain ⟨b, _, rfl, hb⟩ := withByte_eq_ok hc
    cases hb
    simp [Instr.wf, Instr.toBytes]
  | getnext =>
    obtain ⟨now, _, rfl, hnow⟩ := withNum_eq_ok_bitVec (w := 32) rfl h
    cases hnow
    simp [Instr.wf, Instr.toBytes]

theorem decodeCmd_eq_ok {bytes rest : List Byte} {i : Instr} (h : decodeCmd bytes = .ok (i, rest)) :
    i.wf = true ∧ bytes = i.toBytes ++ rest := by
  unfold decodeCmd at h
  split at h
  · cases h
  · split at h
    · cases h
    · next hop =>
      rw [← code_of_ofCode hop]
      exact decodeOperands_eq_ok h

/-- A transaction is a command on the port when it is one whole command and the port is the command's own. -/
theorem decodeCmdOn_eq_ok_iff {p : Port} {bytes : List Byte} {i : Instr} :
    decodeCmdOn p bytes = .ok i ↔ decodeCmd bytes = .ok (i, []) ∧ i.port = p := by
  constructor
  · intro h
    have hport := Machine.port_of_decodeCmdOn p bytes i h
    unfold decodeCmdOn at h
    split at h
    · cases h
    · next hcmd =>
      split at h
      · split at h
        · next hrest =>
          cases h
          exact ⟨hrest ▸ hcmd, hport⟩
        · cases h
      · split at h <;> cases h
  · rintro ⟨hcmd, hport⟩
    simp [decodeCmdOn, hcmd, hport]

theorem decodeCmdOn_eq_ok {p : Port} {bytes : List Byte} {i : Instr} (h : decodeCmdOn p bytes = .ok i) :
    i.wf = true ∧ encode i = ⟨p, bytes⟩ := by
  obtain ⟨hcmd, rfl⟩ := decodeCmdOn_eq_ok_iff.mp h
  obtain ⟨hwf, rfl⟩ := decodeCmd_eq_ok hcmd
  exact ⟨hwf, by rw [encode, List.append_nil]⟩

theorem decode_encode_of_wire {i : Instr} (hwf : i.wf = true) (hport : i.port = .wire) : decode (encode i) = .ok i := by
  cases i with
  | wData d => exact congrArg Except.ok (decodeWire_data d)
  | wAck a => exact congrArg Except.ok (decodeWire_ack a)
  | wGarbage g => exact congrArg Except.ok (decodeWire_garbage g hwf)
  | wSync | wEoa | wEod => rfl
  | _ => cases hport

theorem decode_encode_of_command {i : Instr} (hwf : i.wf = true) (hport : i.port ≠ .wire) :
    decode (encode i) = .ok i := by
  have hcmd : decodeCmdOn i.port i.toBytes = .ok i := decodeCmdOn_eq_ok_iff.mpr ⟨decodeCmd_toBytes hwf hport, rfl⟩
  unfold decode encode
  cases hp : i.port with
  | host => rwa [hp] at hcmd
  | test => rwa [hp] at hcmd
  | wire => exact absurd hp hport

/-- Settles O1: each class of wire byte, and each form of operands of a command, is read back. -/
theorem decodeOfEncodeGivesInstr : Obligations.DecodeOfEncodeGivesInstr := by
  intro i hwf
  by_cases hport : i.port = .wire
  · exact decode_encode_of_wire hwf hport
  · exact decode_encode_of_command hwf hport

/-- Settles O2: every reader accepts only what the encoder writes. -/
theorem encodeOfDecodeGivesRequest : Obligations.EncodeOfDecodeGivesRequest := by
  rintro ⟨p, bytes⟩ i h
  cases p with
  | host => exact decodeCmdOn_eq_ok h
  | test => exact decodeCmdOn_eq_ok h
  | wire =>
    match bytes, h with
    | [b], h =>
      cases h
      obtain ⟨hwf, hbytes⟩ := toBytes_decodeWire b
      exact ⟨hwf, by rw [encode, hbytes, Machine.port_decodeWire]⟩

/-- Settles O3: each word is the encoding of its instruction, and is read back by the round trip. -/
theorem writtenWordsDecode : Obligations.WrittenWordsDecode :=
  have back := decodeOfEncodeGivesInstr
  ⟨back (.wData 0b0100000) rfl, back (.wAck 0b000101) rfl, back .wSync rfl, back .wEod rfl, back (.openSlot 7) rfl,
    back (.send 0 3 true [0x41, 0x42, 0x43]) rfl, back (.encDPush32 2 0x872310C0) rfl, back (.getnext 1101) rfl⟩

/-! ### Codes that the command port refuses (R73, D1) -/

/-- A host command begins with a code of the command table below the internal ones (R70). -/
theorem exists_code_of_host {i : Instr} (hport : i.port = .host) :
    ∃ (op : Op) (r : List Byte), i.toBytes = op.code :: r ∧ op.code.toNat < 0x10 := by
  cases i with
  | openSlot | closeSlot | send | setrx | txsize | txspace | txflush | task | getnack => exact ⟨_, _, rfl, by decide⟩
  | _ => cases hport

/-- By the round trip, an instruction read from the command port would begin with the code of a host command. -/
theorem decode_host_error {c : Byte} (ops : List Byte) (hc : Op.ofCode c = none ∨ 0x10 ≤ c.toNat) :
    ∃ e, decode ⟨.host, c :: ops⟩ = .error e := by
  cases hdec : decode ⟨.host, c :: ops⟩ with
  | error e => exact ⟨e, rfl⟩
  | ok i =>
    obtain ⟨-, henc⟩ := encodeOfDecodeGivesRequest _ _ hdec
    obtain ⟨hport, hbytes⟩ := Request.mk.inj henc
    obtain ⟨op, r, hop, hlt⟩ := exists_code_of_host hport
    obtain ⟨rfl, -⟩ := List.cons.inj (hop.symm.trans hbytes)
    rcases hc with hnone | hge
    · cases (ofCode_code op).symm.trans hnone
    · exact absurd hlt (Nat.not_lt.mpr hge)

theorem ofCode_eq_none_iff (c : Byte) : Op.ofCode c = none ↔
    (c.toNat = 0x00 ∨ (0x0A ≤ c.toNat ∧ c.toNat ≤ 0x0F) ∨ c.toNat = 0x17 ∨ c.toNat = 0x1F ∨
     (0x25 ≤ c.toNat ∧ c.toNat ≤ 0x27) ∨ (0x29 ≤ c.toNat ∧ c.toNat ≤ 0x2F) ∨ (0x34 ≤ c.toNat ∧ c.toNat ≤ 0x3F) ∨
     0x45 ≤ c.toNat) := by
  revert c
  decide

/-- Settles O4: the 256 codes one by one; and what the command port does not decode is refused. -/
theorem reservedAndInternalCodesRefused : Obligations.ReservedAndInternalCodesRefused := by
  refine ⟨ofCode_eq_none_iff, fun s c ops rest hreq hc => ?_⟩
  obtain ⟨e, herr⟩ := decode_host_error ops hc
  rw [Machine.step_of_decode_error hreq herr]
  rfl

end Sys2Proof.Laws

/-! ## The CRC register (R80, R81) -/

namespace Sys2Proof.Machine

/-- The shifts of the model are the shifts of R80, which look at bit 31. -/
theorem crcShifts_eq_iterate (n : Nat) (c : Word) :
    crcShifts n c = Nat.iterate (fun c => if c.getLsbD 31 then (c <<< 1) ^^^ 0x04C11DB7#32 else c <<< 1) n c := by
  induction n generalizing c with
  | zero => rfl
  | succ n ih =>
    rw [crcShifts, ih, Function.iterate_succ_apply, crcShift, BitVec.msb_eq_getLsbD_last]
    rfl

/-- Settles O16: the shifts are R80's; the value over "123456789" is computed. -/
theorem crcStepFollowsTheGenerator : Obligations.CrcStepFollowsTheGenerator := by
  refine ⟨fun c b s => ?_, rfl, by decide, by decide +kernel⟩
  rw [← crcShifts_eq_iterate]
  rfl

/-- While the bits that leave the register are zero, the generator is never added. -/
theorem crcShifts_of_clear (n : Nat) (c : Word) (h : ∀ i < n, c.getLsbD (31 - i) = false) :
    crcShifts n c = c <<< n := by
  induction n generalizing c with
  | zero => simp [crcShifts]
  | succ n ih =>
    have hshift : crcShift c = c <<< 1 := by
      have htop : c.msb = false := by rw [BitVec.msb_eq_getLsbD_last]; exact h 0 n.succ_pos
      simp [crcShift, htop]
    have hclear : ∀ i < n, (c <<< 1).getLsbD (31 - i) = false := by
      intro i hi
      have hbit := h (i + 1) (Nat.succ_lt_succ hi)
      have hidx : 31 - i - 1 = 31 - (i + 1) := by omega
      rw [BitVec.getLsbD_shiftLeft, hidx, hbit, Bool.and_false]
    rw [crcShifts, hshift, ih _ hclear, ← BitVec.shiftLeft_add, Nat.add_comm]

/-- Adding the top byte to itself clears it, so nothing but the shift is left (R81). -/
theorem crcStep_topByte (c : Word) : crcStep c (c.extractLsb' 24 8) = c <<< 8 := by
  have hclear : ∀ i < 8, (c ^^^ ((c.extractLsb' 24 8).setWidth 32 <<< 24)).getLsbD (31 - i) = false := by
    intro i hi
    have hidx : 24 + (31 - i - 24) = 31 - i := by omega
    simp [hidx, show 31 - i < 32 by omega, show ¬ (31 - i < 24) by omega, show 31 - i - 24 < 8 by omega]
  rw [crcStep, crcShifts_of_clear 8 _ hclear]
  ext i hi
  simp only [BitVec.getElem_shiftLeft, BitVec.getElem_xor, BitVec.getElem_setWidth, BitVec.getLsbD_extractLsb']
  by_cases h8 : i < 8
  · simp [h8]
  · simp [h8, show i - 8 < 24 by omega]

/-- The byte that `n` shifts bring to the top of the register. -/
theorem topByte_shiftLeft (c : Word) (n : Nat) (hn : n ≤ 24) :
    (c <<< n).extractLsb' 24 8 = c.extractLsb' (24 - n) 8 := by
  ext i hi
  simp only [BitVec.getElem_extractLsb', BitVec.getLsbD_shiftLeft, show 24 + i - n = 24 - n + i by omega,
    show 24 + i < 32 by omega, show ¬ (24 + i < n) by omega, decide_true, decide_false, Bool.not_false, Bool.true_and]

/-- The register after its own value is zero: each step brings the next byte to the top. -/
theorem crcOver_wordBytes (c : Word) : crcOver c (wordBytes c) = 0 := by
  calc crcOver c (wordBytes c)
    _ = crcStep (crcStep (crcStep (crcStep c (c.extractLsb' 24 8)) (c.extractLsb' 16 8)) (c.extractLsb' 8 8))
          (c.extractLsb' 0 8) := rfl
    _ = crcStep (crcStep (crcStep (c <<< 8) ((c <<< 8).extractLsb' 24 8)) (c.extractLsb' 8 8)) (c.extractLsb' 0 8) := by
      rw [crcStep_topByte, topByte_shiftLeft c 8 (by decide)]
    _ = crcStep (crcStep (c <<< 16) ((c <<< 16).extractLsb' 24 8)) (c.extractLsb' 0 8) := by
      rw [crcStep_topByte, ← BitVec.shiftLeft_add, topByte_shiftLeft c 16 (by decide)]
    _ = crcStep (c <<< 24) ((c <<< 24).extractLsb' 24 8) := by
      rw [crcStep_topByte, ← BitVec.shiftLeft_add, topByte_shiftLeft c 24 (by decide)]
    _ = 0 := by
      rw [crcStep_topByte, ← BitVec.shiftLeft_add]
      exact BitVec.shiftLeft_eq_zero (by decide)

theorem crcOver_append (c : Word) (m m' : List Byte) : crcOver c (m ++ m') = crcOver (crcOver c m) m' :=
  List.foldl_append

/-- Settles O17: the step over the own top byte, and four of them behind the message. -/
theorem crcResidueIsZero : Obligations.CrcResidueIsZero :=
  ⟨crcStep_topByte, fun m => by rw [crcOver_append, crcOver_wordBytes]⟩

/-! ## The classifiers (R98 to R102, R106) -/

theorem isAckByte_eq_range (b : Byte) : isAckByte b = decide (0x40 ≤ b.toNat ∧ b.toNat ≤ 0x7F) := by
  revert b
  decide

theorem isDataByte_eq_range (b : Byte) : isDataByte b = decide (0x80 ≤ b.toNat) := by
  revert b
  decide

/-- A classifier of one value compares numbers. -/
theorem beq_eq_toNat_beq (b : Byte) (n : Nat) (h : n < 256) : (b == BitVec.ofNat 8 n) = (b.toNat == n) := by
  rw [Bool.eq_iff_iff, beq_iff_eq, beq_iff_eq, BitVec.toNat_eq, BitVec.toNat_ofNat, Nat.mod_eq_of_lt h]

/-- Settles O18: each classifier is the test of its range. -/
theorem classifiersAnswerTheirRanges : Obligations.ClassifiersAnswerTheirRanges := by
  intro b s
  rw [← isAckByte_eq_range, ← isDataByte_eq_range, ← beq_eq_toNat_beq b 0x2C (by decide),
    ← beq_eq_toNat_beq b 0x01 (by decide), ← beq_eq_toNat_beq b 0x02 (by decide)]
  exact ⟨rfl, rfl, rfl, rfl, rfl⟩

/-- Settles O19: the 256 bytes one by one. -/
theorem wireClassesAreDisjoint : Obligations.WireClassesAreDisjoint := by
  constructor
  · decide
  · decide

end Sys2Proof.Machine

/-! ## The packing as arithmetic (R69, R84, R85, R90, R91) -/

namespace Sys2Proof.Machine

theorem ushiftRight_eq_ofNat (b : Byte) (n : Nat) : b >>> n = BitVec.ofNat 8 (b.toNat / 2 ^ n) := by
  rw [← BitVec.toNat_inj, BitVec.toNat_ushiftRight, Nat.shiftRight_eq_div_pow, BitVec.toNat_ofNat,
    Nat.mod_eq_of_lt (Nat.lt_of_le_of_lt (Nat.div_le_self _ _) b.isLt)]

theorem shiftLeft_eq_ofNat (b : Byte) (n : Nat) : b <<< n = BitVec.ofNat 8 (b.toNat * 2 ^ n) := by
  rw [← BitVec.toNat_inj, BitVec.toNat_shiftLeft, Nat.shiftLeft_eq, BitVec.toNat_ofNat]

/-- Masking keeps the value of the payload bits. -/
theorem toNat_payloadBits (k : Kind) (b : Byte) : (payloadBits k b).toNat = b.toNat % 2 ^ k.width := by
  cases k with
  | ack => exact Nat.and_two_pow_sub_one_eq_mod b.toNat 6
  | data => exact Nat.and_two_pow_sub_one_eq_mod b.toNat 7

theorem hiPart_eq_ofNat (k : Kind) (s : Nat) (b : Byte) :
    hiPart k s b = BitVec.ofNat 8 (b.toNat / 2 ^ (k.d * (s + 1))) := ushiftRight_eq_ofNat _ _

theorem Kind.two_pow_width_dvd (k : Kind) : 2 ^ k.width ∣ 2 ^ 8 := by cases k <;> decide

theorem loPart_eq_ofNat (k : Kind) (s : Nat) (b : Byte) :
    loPart k s b = BitVec.ofNat 8 (b.toNat * 2 ^ (k.width - k.d * (s + 1)) % 2 ^ k.width) := by
  have hmask := toNat_payloadBits k (b <<< (k.width - k.d * (s + 1)))
  rw [BitVec.toNat_shiftLeft, Nat.shiftLeft_eq, Nat.mod_mod_of_dvd _ k.two_pow_width_dvd] at hmask
  rw [← hmask, BitVec.ofNat_toNat, BitVec.setWidth_eq]
  rfl

theorem completing_eq_ofNat (k : Kind) (j : Nat) (e : Byte) :
    completing k j (payloadBits k e) = BitVec.ofNat 8 (e.toNat % 2 ^ k.width / 2 ^ (k.width - k.d * j)) := by
  rw [completing, ushiftRight_eq_ofNat, toNat_payloadBits]

theorem seeding_eq_ofNat (k : Kind) (j : Nat) (e : Byte) :
    seeding k j (payloadBits k e) = BitVec.ofNat 8 (e.toNat % 2 ^ k.width * 2 ^ (k.d * (j + 1))) := by
  rw [seeding, shiftLeft_eq_ofNat, toNat_payloadBits]

/-! ## Reading a buffer -/

section get

variable {E F : CodecBuf} {written : List Byte} {n : Nat}

/-- What stands below index `n` is read from the old bytes. -/
theorem get_take_append_of_lt (hbytes : F.bytes = E.bytes.take n ++ written) (hn : n ≤ E.bytes.length) {i : Nat}
    (hi : i < n) : F.get i = E.get i := by
  have hlen : i < (E.bytes.take n).length := by simp; omega
  rw [CodecBuf.get, hbytes, List.getD_append _ _ _ _ hlen]
  simp [CodecBuf.get, List.getD_eq_getElem?_getD, List.getElem?_take_of_lt hi]

/-- What stands from index `n` on is what has been written. -/
theorem get_take_append_add (hbytes : F.bytes = E.bytes.take n ++ written) (hn : n ≤ E.bytes.length) (i : Nat) :
    F.get (n + i) = written.getD i (Config.staleByte (n + i)) := by
  have hlen : (E.bytes.take n).length = n := by simp [hn]
  rw [CodecBuf.get, hbytes, List.getD_append_right _ _ _ _ (by omega), hlen, Nat.add_sub_cancel_left]

end get

/-! ## A push into an encode buffer (R83 to R85) -/

/-- The byte in work: the one that the next push completes. -/
def CodecBuf.inWork (k : Kind) (E : CodecBuf) : Byte := if E.step = 0 then k.tag else E.get E.count

theorem hasRoom_eq_false_iff (k : Kind) (E : CodecBuf) : E.hasRoom k = false ↔ k.cap < E.count + 2 := by
  simp [CodecBuf.hasRoom]

section encPush

variable {k : Kind} {E : CodecBuf} (b : Byte) (hroom : E.hasRoom k = true)
include hroom

theorem encPush_bytes : (E.encPush k b).bytes =
    E.bytes.take E.count ++ [E.inWork k ||| hiPart k E.step b, k.tag ||| loPart k E.step b] := by
  rw [CodecBuf.encPush, if_pos hroom, CodecBuf.inWork]

theorem encPush_crc : (E.encPush k b).crc = crcStep E.crc b := by
  rw [CodecBuf.encPush, if_pos hroom]

theorem encPush_last (hlast : E.step + 1 = k.group) :
    (E.encPush k b).count = E.count + 2 ∧ (E.encPush k b).step = 0 := by
  simp [CodecBuf.encPush, hroom, hlast]

theorem encPush_not_last (hlast : E.step + 1 ≠ k.group) :
    (E.encPush k b).count = E.count + 1 ∧ (E.encPush k b).step = E.step + 1 := by
  simp [CodecBuf.encPush, hroom, hlast]

variable (hok : E.EncOk k)
include hok

theorem encPush_get_of_lt {i : Nat} (hi : i < E.count) : (E.encPush k b).get i = E.get i :=
  get_take_append_of_lt (encPush_bytes b hroom) hok.count_le hi

theorem encPush_get_count : (E.encPush k b).get E.count = (E.inWork k ||| hiPart k E.step b) :=
  get_take_append_add (encPush_bytes b hroom) hok.count_le 0

theorem encPush_get_succ : (E.encPush k b).get (E.count + 1) = (k.tag ||| loPart k E.step b) :=
  get_take_append_add (encPush_bytes b hroom) hok.count_le 1

end encPush

/-! ## A push into a decode buffer (R83, R90, R91) -/

/-- The original byte that a push at a position other than 0 completes. -/
def CodecBuf.completed (k : Kind) (D : CodecBuf) (e : Byte) : Byte :=
  D.get D.count ||| completing k D.step (payloadBits k e)

/-- The bytes that a push writes from index `count` on: at the first position of a super-group an original byte is
opened; at the others the byte in work is completed, and the next one is opened unless the super-group ends. -/
def CodecBuf.unpacked (k : Kind) (D : CodecBuf) (e : Byte) : List Byte :=
  (if D.step = 0 then [] else [D.completed k e]) ++
    (if D.step + 1 < k.positions then [seeding k D.step (payloadBits k e)] else [])

section decPush

variable {k : Kind} {D : CodecBuf} (e : Byte) (hroom : D.hasRoom k = true)
include hroom

theorem decPush_eq : D.decPush k e =
    { bytes := D.bytes.take D.count ++ D.unpacked k e
      count := if D.step = 0 then D.count else D.count + 1
      step := if D.step + 1 < k.positions then D.step + 1 else 0
      crc := if D.step = 0 then D.crc else crcStep D.crc (D.completed k e) } := by
  by_cases hstep : D.step = 0
  · simp [CodecBuf.decPush, CodecBuf.unpacked, hroom, hstep, k.one_lt_positions]
  · by_cases hmore : D.step + 1 < k.positions
    · simp [CodecBuf.decPush, CodecBuf.unpacked, CodecBuf.completed, hroom, hstep, hmore]
    · simp [CodecBuf.decPush, CodecBuf.unpacked, CodecBuf.completed, hroom, hstep, hmore]

theorem decPush_bytes : (D.decPush k e).bytes = D.bytes.take D.count ++ D.unpacked k e := by
  rw [decPush_eq e hroom]

theorem decPush_count : (D.decPush k e).count = if D.step = 0 then D.count else D.count + 1 := by
  rw [decPush_eq e hroom]

theorem decPush_step : (D.decPush k e).step = if D.step + 1 < k.positions then D.step + 1 else 0 := by
  rw [decPush_eq e hroom]

theorem decPush_crc : (D.decPush k e).crc = if D.step = 0 then D.crc else crcStep D.crc (D.completed k e) := by
  rw [decPush_eq e hroom]

variable (hok : D.DecOk k)
include hok

theorem decPush_get_of_lt {i : Nat} (hi : i < D.count) : (D.decPush k e).get i = D.get i :=
  get_take_append_of_lt (decPush_bytes e hroom) hok.count_le hi

theorem decPush_get_completed (hstep : D.step ≠ 0) : (D.decPush k e).get D.count = D.completed k e := by
  have hget := get_take_append_add (decPush_bytes e hroom) hok.count_le 0
  simpa [CodecBuf.unpacked, hstep] using hget

/-- The byte that a push opens becomes the byte in work. -/
theorem decPush_get_opened (hmore : D.step + 1 < k.positions) :
    (D.decPush k e).get (D.decPush k e).count = seeding k D.step (payloadBits k e) := by
  rw [decPush_count e hroom]
  have hget := get_take_append_add (decPush_bytes e hroom) hok.count_le
  split
  · next hstep => simpa [CodecBuf.unpacked, hstep, k.one_lt_positions] using hget 0
  · next hstep => simpa [CodecBuf.unpacked, hstep, hmore] using hget 1

end decPush

end Sys2Proof.Machine

/-! ## The encoders' instructions (R84 to R89, R96, R97) -/

namespace Sys2Proof.Machine

theorem put_self {α : Type} (f : Fifo α) (i : Fin 3) : f.put i f.slots[i] = f := by
  simp [Fifo.put]

@[simp] theorem put_put {α : Type} (f : Fifo α) (i : Fin 3) (x y : α) : (f.put i x).put i y = f.put i y := by
  simp [Fifo.put]

theorem put_slot_same {α : Type} (f : Fifo α) (i : Fin 3) (x : α) : (f.put i x).slots[i] = x := by
  rw [put_slot, if_pos rfl]

theorem put_slot_ne {α : Type} (f : Fifo α) {i j : Fin 3} (x : α) (h : j ≠ i) : (f.put i x).slots[j] = f.slots[j] := by
  rw [put_slot, if_neg h.symm]

@[simp] theorem setAckFrame_self (s : State) (e : Fin 3) : s.setAckFrame e (s.ackFrame e) = s := by
  show { s with ackQ := s.ackQ.put e s.ackQ.slots[e] } = s
  rw [put_self]

@[simp] theorem setWinFrame_self (s : State) (e : Fin 3) : s.setWinFrame e (s.winFrame e) = s := by
  show { s with win := s.win.put e s.win.slots[e] } = s
  rw [put_self]

@[simp] theorem ackFrame_setAckFrame (s : State) (e : Fin 3) (E : CodecBuf) : (s.setAckFrame e E).ackFrame e = E :=
  put_slot_same s.ackQ e E

@[simp] theorem winFrame_setWinFrame (s : State) (e : Fin 3) (E : CodecBuf) : (s.setWinFrame e E).winFrame e = E := by
  rw [State.winFrame, setWinFrame_win, put_slot_same]

@[simp] theorem setAckFrame_setAckFrame (s : State) (e : Fin 3) (E F : CodecBuf) :
    (s.setAckFrame e E).setAckFrame e F = s.setAckFrame e F := by
  simp [State.setAckFrame]

@[simp] theorem setWinFrame_setWinFrame (s : State) (e : Fin 3) (E F : CodecBuf) :
    (s.setWinFrame e E).setWinFrame e F = s.setWinFrame e F := by
  simp only [State.setWinFrame, put_put, put_slot_same]

/-- The effect of an accepted push, with the packing as arithmetic. -/
theorem encPush_packs {k : Kind} {E : CodecBuf} (b : Byte) (hroom : E.hasRoom k = true) (hok : E.EncOk k) :
    (∀ i, i < E.count → (E.encPush k b).get i = E.get i) ∧
    (E.encPush k b).get E.count =
      ((if E.step = 0 then k.tag else E.get E.count) ||| BitVec.ofNat 8 (b.toNat / 2 ^ (k.d * (E.step + 1)))) ∧
    (E.encPush k b).get (E.count + 1) =
      (k.tag ||| BitVec.ofNat 8 (b.toNat * 2 ^ (k.width - k.d * (E.step + 1)) % 2 ^ k.width)) ∧
    (E.encPush k b).crc = crcStep E.crc b ∧
    (E.step + 1 = k.group → (E.encPush k b).count = E.count + 2 ∧ (E.encPush k b).step = 0) ∧
    (E.step + 1 ≠ k.group → (E.encPush k b).count = E.count + 1 ∧ (E.encPush k b).step = E.step + 1) := by
  refine ⟨fun i hi => encPush_get_of_lt b hroom hok hi, ?_, ?_, encPush_crc b hroom, encPush_last b hroom,
    encPush_not_last b hroom⟩
  · rw [encPush_get_count b hroom hok, hiPart_eq_ofNat, CodecBuf.inWork]
  · rw [encPush_get_succ b hroom hok, loPart_eq_ofNat]

/-- Settles O20: the push of either kind, with the widths of the ACK packing. -/
theorem encAPushPacksTheByte : Obligations.EncAPushPacksTheByte := by
  refine ⟨fun s e b hfull => ?_, fun s e b hok hfits => ?_⟩
  · have hroom : (s.ackFrame e).hasRoom .ack = false := (hasRoom_eq_false_iff _ _).mpr hfull
    rw [exec, execEncAPush, encPush_full .ack (s.ackFrame e) b hfull, setAckFrame_self, hroom]
    rfl
  · have hroom : s.ackQ.slots[e].hasRoom .ack = true := (hasRoom_iff _ _).mpr hfits
    obtain ⟨hold, hcur, hseed, hcrc, hlast, hmore⟩ := encPush_packs b hroom hok
    have hwidth : Kind.ack.width - Kind.ack.d * (s.ackQ.slots[e].step + 1) = 4 - 2 * s.ackQ.slots[e].step := by
      simp only [Kind.width, Kind.d]
      omega
    rw [hwidth] at hseed
    have hslot : ((s.setAckFrame e ((s.ackFrame e).encPush .ack b)).outcome true).ackQ.slots[e] =
        s.ackQ.slots[e].encPush .ack b := put_slot_same _ _ _
    refine ⟨(s.setAckFrame e ((s.ackFrame e).encPush .ack b)).outcome true, ?_, rfl, rfl,
      fun j hj => put_slot_ne _ _ hj, ?_⟩
    · rw [exec, execEncAPush, State.ackFrame, hroom]
    · rw [hslot]
      exact ⟨hold, hcur, hseed, hcrc, fun h => hlast (congrArg (· + 1) h), fun h => hmore fun h' => h (Nat.succ.inj h')⟩

/-- Settles O21: the push of either kind, with the widths of the DATA packing. -/
theorem encDPushPacksTheByte : Obligations.EncDPushPacksTheByte := by
  refine ⟨fun s e b hfull => ?_, ?_⟩
  · have hroom : (s.winFrame e).hasRoom .data = false := (hasRoom_eq_false_iff _ _).mpr hfull
    rw [exec, execEncDPush, encPush_full .data (s.winFrame e) b hfull, setWinFrame_self, hroom]
    rfl
  · rintro s e b _ rfl hok hfits
    have hroom : (s.winFrame e).hasRoom .data = true := (hasRoom_iff _ _).mpr hfits
    obtain ⟨hold, hcur, hseed, hcrc, hlast, hmore⟩ := encPush_packs b hroom hok
    have hwidth : Kind.data.width - Kind.data.d * ((s.winFrame e).step + 1) = 6 - (s.winFrame e).step := by
      simp only [Kind.width, Kind.d]
      omega
    rw [Kind.d, Nat.one_mul] at hcur
    rw [hwidth] at hseed
    exact ⟨(s.setWinFrame e ((s.winFrame e).encPush .data b)).outcome true, (s.winFrame e).encPush .data b,
      by rw [exec, execEncDPush, hroom], rfl, rfl, fun j hj => put_slot_ne _ _ hj, put_slot_same _ _ _, hold, hcur,
      hseed, hcrc, fun h => hlast (congrArg (· + 1) h), fun h => hmore fun h' => h (Nat.succ.inj h')⟩

/-- A sequence of four is accepted if each is. -/
theorem encAccepts_wordBytes (k : Kind) (E : CodecBuf) (v : Word) : E.encAccepts k (wordBytes v) =
    (E.hasRoom k && (E.encPush k (v.extractLsb' 24 8)).hasRoom k &&
      ((E.encPush k (v.extractLsb' 24 8)).encPush k (v.extractLsb' 16 8)).hasRoom k &&
      (((E.encPush k (v.extractLsb' 24 8)).encPush k (v.extractLsb' 16 8)).encPush k
        (v.extractLsb' 8 8)).hasRoom k) := by
  simp [wordBytes, CodecBuf.encAccepts, Bool.and_assoc]

/-- Settles O22: the four pushes write the same slot one after the other, and only the last write is seen. -/
theorem push32IsFourPushes : Obligations.Push32IsFourPushes := by
  intro s e v
  constructor
  · refine ⟨_, s.setAckFrame e ((s.ackFrame e).encPush .ack _), _, _, _, _, _, _, _, rfl, rfl, rfl, rfl, rfl, ?_⟩
    simp only [exec, execEncAPush32, setAckFrame_setAckFrame, ackFrame_setAckFrame, encAccepts_wordBytes]
    rfl
  · refine ⟨_, s.setWinFrame e ((s.winFrame e).encPush .data _), _, _, _, _, _, _, _, rfl, rfl, rfl, rfl, rfl, ?_⟩
    simp only [exec, execEncDPush32, setWinFrame_setWinFrame, winFrame_setWinFrame, encAccepts_wordBytes]
    rfl

theorem hasEndRoom_iff (k : Kind) (E : CodecBuf) :
    E.hasEndRoom k = true ↔ E.count + (if E.step = 0 then 0 else 1) + 1 ≤ k.cap := by
  rw [CodecBuf.hasEndRoom, CodecBuf.endNeed, decide_eq_true_iff, Nat.add_comm 1, Nat.add_assoc]

theorem encEnd_full {k : Kind} {E : CodecBuf} (h : E.hasEndRoom k = false) : E.encEnd k = E := by
  simp [CodecBuf.encEnd, h]

/-- The terminator follows the whole of the defined content. -/
theorem encEnd_of_room {k : Kind} {E : CodecBuf} (hok : E.EncOk k) (hroom : E.hasEndRoom k = true) :
    E.encEnd k = ⟨E.bytes ++ [k.terminator], E.bytes.length + 1, 0, E.crc⟩ := by
  have hlen := hok.length_eq
  have hn : (if E.step = 0 then E.count else E.count + 1) = E.bytes.length := by split at hlen <;> simp [*]
  simp [CodecBuf.encEnd, hroom, hn]

/-- Settles O23: with room the terminator follows the defined content, whose length counts the partly filled byte. -/
theorem endAppendsTheTerminator : Obligations.EndAppendsTheTerminator := by
  refine fun s e => ⟨fun (hok : (s.ackFrame e).EncOk .ack) => ?_, fun (hok : (s.winFrame e).EncOk .data) => ?_⟩
  · refine ⟨_, _, rfl, rfl, fun hfits => ?_, fun hfull => ?_⟩
    · have hroom : (s.ackFrame e).hasEndRoom .ack = true := (hasEndRoom_iff _ _).mpr hfits
      rw [encEnd_of_room hok hroom, hroom, hok.length_eq]
      exact ⟨rfl, rfl, fun j hj => put_slot_ne _ _ hj, put_slot_same _ _ _⟩
    · have hroom : (s.ackFrame e).hasEndRoom .ack = false :=
        Bool.eq_false_iff.mpr fun h => Nat.not_lt.mpr ((hasEndRoom_iff _ _).mp h) hfull
      rw [encEnd_full hroom, setAckFrame_self, hroom]
      rfl
  · refine ⟨_, _, rfl, rfl, fun hfits => ?_, fun hfull => ?_⟩
    · have hroom : (s.winFrame e).hasEndRoom .data = true := (hasEndRoom_iff _ _).mpr hfits
      rw [encEnd_of_room hok hroom, hroom, hok.length_eq]
      exact ⟨rfl, rfl, fun j hj => put_slot_ne _ _ hj, put_slot_same _ _ _⟩
    · have hroom : (s.winFrame e).hasEndRoom .data = false :=
        Bool.eq_false_iff.mpr fun h => Nat.not_lt.mpr ((hasEndRoom_iff _ _).mp h) hfull
      rw [encEnd_full hroom, setWinFrame_self, hroom]
      rfl

/-- Settles O24: a flush puts the empty buffer in the place it names. -/
theorem flushEmptiesTheBuffer : Obligations.FlushEmptiesTheBuffer := by
  intro s e
  have hack : (s.ackQ.put e CodecBuf.empty).slots[e] = CodecBuf.empty := put_slot_same _ _ _
  have hwin := put_slot_same s.win e { s.win.slots[e] with frame := CodecBuf.empty }
  refine ⟨⟨(s.setAckFrame e CodecBuf.empty).done, rfl, rfl, rfl, fun j hj => put_slot_ne _ _ hj, ?_⟩,
    ⟨(s.setWinFrame e CodecBuf.empty).done, rfl, rfl, rfl, fun j hj => put_slot_ne _ _ hj, ?_⟩,
    ⟨{ s with rxAck := CodecBuf.empty }.done, rfl, rfl, rfl, rfl, rfl⟩,
    ⟨{ s with rxData := CodecBuf.empty }.done, rfl, rfl, rfl, rfl, rfl⟩⟩
  · exact ⟨congrArg CodecBuf.count hack, congrArg CodecBuf.step hack, congrArg CodecBuf.crc hack⟩
  · have hframe := congrArg WinEntry.frame hwin
    refine ⟨?_, congrArg CodecBuf.count hframe, congrArg CodecBuf.step hframe, congrArg CodecBuf.crc hframe⟩
    exact hwin.trans (congrArg (fun E => { s.win.slots[e] with frame := E }) hframe.symm)

/-! ## The decoders' instructions (R90, R91) -/

section decPush

variable {k : Kind} {D : CodecBuf} (e : Byte) (hroom : D.hasRoom k = true) (hok : D.DecOk k)
include hroom hok

/-- The effect of a push at the first position of a super-group. -/
theorem decPush_opens (hstep : D.step = 0) :
    (D.decPush k e).get D.count = BitVec.ofNat 8 (e.toNat % 2 ^ k.width * 2 ^ k.d) ∧
    (D.decPush k e).step = 1 ∧ (D.decPush k e).count = D.count ∧ (D.decPush k e).crc = D.crc := by
  have hmore : D.step + 1 < k.positions := by rw [hstep]; exact k.one_lt_positions
  have hcount := (decPush_count e hroom).trans (if_pos hstep)
  have hopened := decPush_get_opened e hroom hok hmore
  rw [hcount, seeding_eq_ofNat, hstep, Nat.zero_add, Nat.mul_one] at hopened
  exact ⟨hopened, (decPush_step e hroom).trans (by rw [if_pos hmore, hstep]), hcount,
    (decPush_crc e hroom).trans (if_pos hstep)⟩

/-- The effect of a push at any other position. -/
theorem decPush_completes (hstep : D.step ≠ 0) :
    (D.decPush k e).get D.count =
      (D.get D.count ||| BitVec.ofNat 8 (e.toNat % 2 ^ k.width / 2 ^ (k.width - k.d * D.step))) ∧
    (D.decPush k e).crc = crcStep D.crc ((D.decPush k e).get D.count) ∧ (D.decPush k e).count = D.count + 1 ∧
    (D.step + 1 < k.positions →
      (D.decPush k e).get (D.count + 1) = BitVec.ofNat 8 (e.toNat % 2 ^ k.width * 2 ^ (k.d * (D.step + 1))) ∧
      (D.decPush k e).step = D.step + 1) ∧
    (D.step + 1 = k.positions → (D.decPush k e).step = 0) := by
  have hcount := (decPush_count e hroom).trans (if_neg hstep)
  have hcompleted := decPush_get_completed e hroom hok hstep
  refine ⟨?_, ?_, hcount, fun hmore => ⟨?_, (decPush_step e hroom).trans (if_pos hmore)⟩, fun hlast => ?_⟩
  · rw [hcompleted, CodecBuf.completed, completing_eq_ofNat]
  · rw [hcompleted, decPush_crc e hroom, if_neg hstep]
  · rw [← hcount, decPush_get_opened e hroom hok hmore, seeding_eq_ofNat]
  · rw [decPush_step e hroom, if_neg (by omega)]

end decPush

/-- Settles O25: the push of either kind, with the widths of the ACK packing. -/
theorem decAPushUnpacksTheByte : Obligations.DecAPushUnpacksTheByte := by
  refine ⟨fun s b hfull => ?_, ?_⟩
  · have hroom : s.rxAck.hasRoom .ack = false := (hasRoom_eq_false_iff _ _).mpr hfull
    rw [exec, execDecAPush, State.rxAckByte, decPush_full .ack s.rxAck b hfull, hroom]
    rfl
  · rintro s b _ rfl hok hfits
    have hroom : s.rxAck.hasRoom .ack = true := (hasRoom_iff _ _).mpr hfits
    refine ⟨(s.rxAckByte b).outcome true, by rw [exec, execDecAPush, hroom], rfl,
      fun i hi => decPush_get_of_lt b hroom hok hi, fun h0 => decPush_opens b hroom hok h0, fun h0 => ?_⟩
    obtain ⟨hget, hcrc, hcount, hmore, hlast⟩ := decPush_completes b hroom hok h0
    exact ⟨hget, hcrc, hcount, fun h => hmore (Nat.succ_lt_succ h), fun h => hlast (congrArg (· + 1) h)⟩

/-- Settles O26: the push of either kind, with the widths of the DATA packing. -/
theorem decDPushUnpacksTheByte : Obligations.DecDPushUnpacksTheByte := by
  refine ⟨fun s b hfull => ?_, ?_⟩
  · have hroom : s.rxData.hasRoom .data = false := (hasRoom_eq_false_iff _ _).mpr hfull
    rw [exec, execDecDPush, State.rxDataByte, decPush_full .data s.rxData b hfull, hroom]
    rfl
  · rintro s b _ rfl hok hfits
    have hroom : s.rxData.hasRoom .data = true := (hasRoom_iff _ _).mpr hfits
    refine ⟨(s.rxDataByte b).outcome true, by rw [exec, execDecDPush, hroom], rfl,
      fun i hi => decPush_get_of_lt b hroom hok hi, fun h0 => decPush_opens b hroom hok h0, fun h0 => ?_⟩
    obtain ⟨hget, hcrc, hcount, hmore, hlast⟩ := decPush_completes b hroom hok h0
    simp only [Kind.d, Nat.one_mul] at hget hmore
    exact ⟨hget, hcrc, hcount, fun h => hmore (Nat.succ_lt_succ h), fun h => hlast (congrArg (· + 1) h)⟩

end Sys2Proof.Machine

/-! ## Row and step (R69): the index of an original byte in the encoded ones -/

namespace Sys2Proof.Machine

/-- The index of the first of the two encoded bytes that hold original byte `n`. -/
def Kind.rowIndex (k : Kind) (n : Nat) : Nat := k.positions * (n / k.group) + n % k.group

/-- How many original bytes an encode buffer takes (R103). -/
def Kind.capacity : Kind → Nat
  | .ack => 12
  | .data => 308

/-- The byte at an index of a string of encoded bytes, as the random-access decode reads it. -/
def frameByte (bs : List Byte) (i : Nat) : Byte := bs.getD i (Config.staleByte i)

theorem get_eq_frameByte (E : CodecBuf) : E.get = frameByte E.bytes := rfl

theorem frameByte_append_of_lt (bs bs' : List Byte) {i : Nat} (h : i < bs.length) :
    frameByte (bs ++ bs') i = frameByte bs i := List.getD_append _ _ _ _ h

theorem frameByte_append_length (bs : List Byte) (b : Byte) : frameByte (bs ++ [b]) bs.length = b := by
  simp [frameByte, List.getD_eq_getElem?_getD]

/-! With the constants of a kind put in, each of these is linear arithmetic with division by numerals. -/

section arithmetic

variable (k : Kind) (n : Nat)

theorem Kind.mod_group_succ :
    (n + 1) % k.group = if n % k.group + 1 = k.group then 0 else n % k.group + 1 := by
  split <;> cases k <;> simp only [Kind.group] at * <;> omega

theorem Kind.rowIndex_succ :
    k.rowIndex (n + 1) = if n % k.group + 1 = k.group then k.rowIndex n + 2 else k.rowIndex n + 1 := by
  split <;> cases k <;> simp only [Kind.rowIndex, Kind.group, Kind.positions] at * <;> omega

/-- The second byte of an original byte stands before the byte in work of a later one, unless the later one is the next
of the same super-group. -/
theorem Kind.rowIndex_lt_or_next {m : Nat} (h : m < n) :
    k.rowIndex m + 1 < k.rowIndex n ∨ (k.rowIndex m + 1 = k.rowIndex n ∧ n % k.group = m % k.group + 1) := by
  cases k <;> simp only [Kind.rowIndex, Kind.group, Kind.positions] <;> omega

/-- Both bytes of an original byte below the original byte count stand in the string. -/
theorem Kind.rowIndex_succ_lt {len : Nat} (h : n < len * k.width / 8) : k.rowIndex n + 1 < len := by
  cases k <;> simp only [Kind.rowIndex, Kind.group, Kind.positions, Kind.width] at * <;> omega

/-- The encoded bytes of `n` original bytes, the partly filled one included, hold `n` original bytes. -/
theorem Kind.count_of_rowIndex : (k.rowIndex n + if n % k.group = 0 then 0 else 1) * k.width / 8 = n := by
  split <;> cases k <;> simp only [Kind.rowIndex, Kind.group, Kind.positions, Kind.width] at * <;> omega

theorem Kind.room_iff : k.rowIndex n + 2 ≤ k.cap ↔ n < k.capacity := by
  cases k <;> simp only [Kind.rowIndex, Kind.group, Kind.positions, Kind.cap, Kind.capacity] <;> omega

theorem Kind.endRoom_iff : k.rowIndex n + (if n % k.group = 0 then 0 else 1) + 1 ≤ k.cap ↔ n < k.capacity := by
  split <;> cases k <;> simp only [Kind.rowIndex, Kind.group, Kind.positions, Kind.cap, Kind.capacity] at * <;> omega

theorem Kind.mod_positions_succ :
    (n + 1) % k.positions = if n % k.positions + 1 < k.positions then n % k.positions + 1 else 0 := by
  split <;> cases k <;> simp only [Kind.positions] at * <;> omega

/-- `n` encoded bytes hold the original bytes of their whole super-groups, and one less than their number
of the last. -/
theorem Kind.count_eq : n * k.width / 8 = k.group * (n / k.positions) + (n % k.positions - 1) := by
  cases k <;> simp only [Kind.group, Kind.positions, Kind.width] <;> omega

/-- A further byte at position 0 opens an original byte; at any other it completes one. -/
theorem Kind.count_succ :
    (n + 1) * k.width / 8 = if n % k.positions = 0 then n * k.width / 8 else n * k.width / 8 + 1 := by
  rw [k.count_eq, k.count_eq]
  split <;> cases k <;> simp only [Kind.group, Kind.positions] at * <;> omega

/-- The original byte in work after `n` encoded bytes: its first byte and its step. -/
theorem Kind.rowIndex_inWork (h : n % k.positions ≠ 0) :
    k.rowIndex (n * k.width / 8) + 1 = n ∧ n * k.width / 8 % k.group + 1 = n % k.positions := by
  rw [k.count_eq]
  cases k <;> simp only [Kind.rowIndex, Kind.group, Kind.positions] at * <;> omega

/-- A string that fits a buffer can be decoded in one of the same size. -/
theorem Kind.decodeRoom (h : n < k.cap) : n * k.width / 8 + 2 ≤ k.cap := by
  cases k <;> simp only [Kind.cap, Kind.width] at * <;> omega

end arithmetic

/-! ## The bits of the packing -/

theorem getLsbD_payloadBits (k : Kind) (e : Byte) (i : Nat) :
    (payloadBits k e).getLsbD i = (decide (i < k.width) && e.getLsbD i) := by
  have hmask : k.mask = BitVec.ofNat 8 (2 ^ k.width - 1) := by cases k <;> rfl
  have hwidth : k.width < 8 := by cases k <;> decide
  rw [payloadBits, BitVec.getLsbD_and, hmask, BitVec.getLsbD_ofNat, Nat.testBit_two_pow_sub_one, Bool.and_comm]
  by_cases hi : i < k.width
  · simp [hi, Nat.lt_trans hi hwidth]
  · simp [hi]

theorem Kind.width_add_d (k : Kind) : k.width + k.d = 8 := by cases k <;> rfl

/-- The two parts of an original byte, as `originalByte` puts them together. -/
theorem originalByte_eq (k : Kind) (E : Nat → Byte) (n : Nat) : originalByte k E n =
    (seeding k (n % k.group) (payloadBits k (E (k.rowIndex n))) |||
      completing k (n % k.group + 1) (payloadBits k (E (k.rowIndex n + 1)))) := rfl

theorem originalByte_congr (k : Kind) {E F : Nat → Byte} {n : Nat} (h0 : E (k.rowIndex n) = F (k.rowIndex n))
    (h1 : E (k.rowIndex n + 1) = F (k.rowIndex n + 1)) : originalByte k E n = originalByte k F n := by
  rw [originalByte_eq, originalByte_eq, h0, h1]

section bits

variable (k : Kind) (s : Nat) (x y b : Byte)

theorem getLsbD_seeding_payloadBits (i : Nat) : (seeding k s (payloadBits k x)).getLsbD i =
    (decide (i < 8) && !decide (i < k.d * (s + 1)) &&
      (decide (i - k.d * (s + 1) < k.width) && x.getLsbD (i - k.d * (s + 1)))) := by
  rw [seeding, BitVec.getLsbD_shiftLeft, getLsbD_payloadBits]

theorem getLsbD_completing_payloadBits (i : Nat) : (completing k s (payloadBits k x)).getLsbD i =
    (decide (k.width - k.d * s + i < k.width) && x.getLsbD (k.width - k.d * s + i)) := by
  rw [completing, BitVec.getLsbD_ushiftRight, getLsbD_payloadBits]

theorem getLsbD_loPart (i : Nat) : (loPart k s b).getLsbD i =
    (decide (i < k.width) && (b <<< (k.width - k.d * (s + 1))).getLsbD i) :=
  getLsbD_payloadBits k _ i

theorem seeding_or : seeding k s (payloadBits k (x ||| y)) =
    (seeding k s (payloadBits k x) ||| seeding k s (payloadBits k y)) := by
  apply BitVec.eq_of_getLsbD_eq
  intro i _
  simp only [BitVec.getLsbD_or, getLsbD_seeding_payloadBits, Bool.and_or_distrib_left]

theorem completing_or : completing k s (payloadBits k (x ||| y)) =
    (completing k s (payloadBits k x) ||| completing k s (payloadBits k y)) := by
  apply BitVec.eq_of_getLsbD_eq
  intro i _
  simp only [BitVec.getLsbD_or, getLsbD_completing_payloadBits, Bool.and_or_distrib_left]

@[simp] theorem payloadBits_tag : payloadBits k k.tag = 0#8 := by cases k <;> rfl

@[simp] theorem seeding_zero : seeding k s 0#8 = 0#8 := BitVec.zero_shiftLeft _

@[simp] theorem completing_zero : completing k s 0#8 = 0#8 := BitVec.zero_ushiftRight

/-- What a push or-s into the byte in work lies below the bits that complete the original byte before. -/
theorem completing_hiPart : completing k s (payloadBits k (hiPart k s b)) = 0#8 := by
  apply BitVec.eq_of_getLsbD_eq
  intro i _
  have hout : 8 ≤ k.d * (s + 1) + (k.width - k.d * s + i) := by
    have := k.width_add_d
    rw [Nat.mul_succ]
    omega
  rw [getLsbD_completing_payloadBits, hiPart, BitVec.getLsbD_ushiftRight, BitVec.getLsbD_of_ge _ _ hout]
  simp

/-- The part that opens an encoded byte leaves the bits of the next original byte clear. -/
theorem seeding_loPart : seeding k (s + 1) (payloadBits k (loPart k s b)) = 0#8 := by
  apply BitVec.eq_of_getLsbD_eq
  intro i hi
  rw [getLsbD_seeding_payloadBits, getLsbD_loPart, BitVec.getLsbD_shiftLeft]
  by_cases hlow : i < k.d * (s + 1 + 1)
  · simp [hlow]
  · have hbelow : i - k.d * (s + 1 + 1) < k.width - k.d * (s + 1) := by
      have := k.width_add_d
      rw [Nat.mul_succ _ (s + 1)] at *
      omega
    simp [hbelow]

/-- The two parts of an original byte give it back. -/
theorem seeding_hiPart_or_completing_loPart (hs : s < k.group) :
    (seeding k s (payloadBits k (hiPart k s b)) ||| completing k (s + 1) (payloadBits k (loPart k s b))) = b := by
  have hle : k.d * (s + 1) ≤ k.width := by
    cases k <;> simp only [Kind.d, Kind.width, Kind.group] at * <;> omega
  have h8 := k.width_add_d
  apply BitVec.eq_of_getLsbD_eq
  intro i hi
  rw [BitVec.getLsbD_or, getLsbD_seeding_payloadBits, getLsbD_completing_payloadBits, getLsbD_loPart, hiPart,
    BitVec.getLsbD_ushiftRight, BitVec.getLsbD_shiftLeft]
  by_cases hlow : i < k.d * (s + 1)
  · have hin : k.width - k.d * (s + 1) + i < k.width := by omega
    have hshift : k.width - k.d * (s + 1) + i < 8 := by omega
    simp [hlow, hin, hshift]
  · have hd : k.d ≤ k.d * (s + 1) := Nat.le_mul_of_pos_right _ s.succ_pos
    have hin : i - k.d * (s + 1) < k.width := by omega
    have hout : ¬ k.width - k.d * (s + 1) + i < k.width := by omega
    have hidx : k.d * (s + 1) + (i - k.d * (s + 1)) = i := by omega
    simp [hlow, hin, hout, hi, hidx]

end bits

end Sys2Proof.Machine

/-! ## What an encode buffer holds (R84, R85, R103) -/

namespace Sys2Proof.Machine

/-- The buffer is what accepted pushes of the bytes `m` leave of a flushed one: random access reads `m` out of it, and
the bits of the byte in work that the next push fills are clear. -/
structure CodecBuf.Encodes (k : Kind) (E : CodecBuf) (m : List Byte) : Prop where
  ok : E.EncOk k
  count_eq : E.count = k.rowIndex m.length
  step_eq : E.step = m.length % k.group
  crc_eq : E.crc = crcOver 0xFFFFFFFF m
  clear : seeding k E.step (payloadBits k (E.inWork k)) = 0#8
  original : ∀ n (h : n < m.length), originalByte k E.get n = m[n]

namespace CodecBuf

theorem empty_encodes (k : Kind) : CodecBuf.empty.Encodes k [] where
  ok := empty_encOk k
  count_eq := by cases k <;> rfl
  step_eq := by cases k <;> rfl
  crc_eq := rfl
  clear := by cases k <;> rfl
  original := fun _ h => absurd h (Nat.not_lt_zero _)

variable {k : Kind} {E : CodecBuf} {m : List Byte}

theorem Encodes.hasRoom_iff (h : E.Encodes k m) : E.hasRoom k = true ↔ m.length < k.capacity := by
  rw [Machine.hasRoom_iff, h.count_eq, k.room_iff]

theorem Encodes.hasEndRoom_iff (h : E.Encodes k m) : E.hasEndRoom k = true ↔ m.length < k.capacity := by
  rw [Machine.hasEndRoom_iff, h.count_eq, h.step_eq, k.endRoom_iff]

/-- The pushed byte is read back, from the byte in work and the one that the push opens. -/
theorem Encodes.originalByte_encPush_length (h : E.Encodes k m) (b : Byte) (hroom : E.hasRoom k = true) :
    originalByte k (E.encPush k b).get m.length = b := by
  rw [originalByte_eq, ← h.count_eq, ← h.step_eq, encPush_get_count b hroom h.ok, encPush_get_succ b hroom h.ok,
    seeding_or, h.clear, completing_or, payloadBits_tag, completing_zero, BitVec.zero_or, BitVec.zero_or]
  exact seeding_hiPart_or_completing_loPart k E.step b h.ok.step_lt

/-- The earlier bytes are still read back: a push changes, below what it opens, only bits that none of them uses. -/
theorem Encodes.originalByte_encPush_of_lt (h : E.Encodes k m) (b : Byte) (hroom : E.hasRoom k = true) {n : Nat}
    (hn : n < m.length) : originalByte k (E.encPush k b).get n = m[n] := by
  rw [← h.original n hn]
  have hbefore : ∀ i, i < k.rowIndex m.length → (E.encPush k b).get i = E.get i := fun i hi =>
    encPush_get_of_lt b hroom h.ok (h.count_eq ▸ hi)
  rcases k.rowIndex_lt_or_next m.length hn with hlt | ⟨hnext, hstep⟩
  · exact originalByte_congr k (hbefore _ (by omega)) (hbefore _ hlt)
  · rw [← h.step_eq] at hstep
    have hinWork : E.inWork k = E.get E.count := if_neg (by omega)
    rw [originalByte_eq, originalByte_eq, hbefore _ (by omega), hnext, ← h.count_eq, encPush_get_count b hroom h.ok,
      hinWork, ← hstep, completing_or, completing_hiPart, BitVec.or_zero]

/-- After a push the byte in work is a flushed one, or the one that the push opened. -/
theorem Encodes.clear_encPush (h : E.Encodes k m) (b : Byte) (hroom : E.hasRoom k = true) :
    seeding k (E.encPush k b).step (payloadBits k ((E.encPush k b).inWork k)) = 0#8 := by
  by_cases hlast : E.step + 1 = k.group
  · obtain ⟨-, hstep⟩ := encPush_last b hroom hlast
    rw [CodecBuf.inWork, if_pos hstep, payloadBits_tag, seeding_zero]
  · obtain ⟨hcount, hstep⟩ := encPush_not_last b hroom hlast
    rw [CodecBuf.inWork, if_neg (by omega), hcount, encPush_get_succ b hroom h.ok, hstep, seeding_or, payloadBits_tag,
      seeding_zero, seeding_loPart, BitVec.zero_or]

theorem Encodes.encPush (h : E.Encodes k m) (b : Byte) (hlt : m.length < k.capacity) :
    (E.encPush k b).Encodes k (m ++ [b]) := by
  have hroom : E.hasRoom k = true := h.hasRoom_iff.mpr hlt
  have hlen : (m ++ [b]).length = m.length + 1 := by simp
  refine ⟨encPush_encOk k E b h.ok, ?_, ?_, ?_, h.clear_encPush b hroom, fun n hn => ?_⟩
  · rw [hlen, k.rowIndex_succ, ← h.step_eq, ← h.count_eq]
    split
    · next hlast => exact (encPush_last b hroom hlast).1
    · next hmore => exact (encPush_not_last b hroom hmore).1
  · rw [hlen, k.mod_group_succ, ← h.step_eq]
    split
    · next hlast => exact (encPush_last b hroom hlast).2
    · next hmore => exact (encPush_not_last b hroom hmore).2
  · rw [encPush_crc b hroom, h.crc_eq, crcOver_append_singleton]
  · by_cases hnew : n = m.length
    · subst hnew
      simpa using h.originalByte_encPush_length b hroom
    · have hold : n < m.length := by omega
      rw [h.originalByte_encPush_of_lt b hroom hold, List.getElem_append_left hold]

theorem Encodes.encPushAll (h : E.Encodes k m) (bs : List Byte) (hle : m.length + bs.length ≤ k.capacity) :
    (E.encPushAll k bs).Encodes k (m ++ bs) := by
  induction bs generalizing E m with
  | nil => simpa [CodecBuf.encPushAll] using h
  | cons b bs ih =>
    rw [List.length_cons] at hle
    have hnext := ih (h.encPush b (by omega)) (by rw [List.length_append, List.length_singleton]; omega)
    rwa [List.append_assoc, List.singleton_append] at hnext

/-- A sequence of pushes is accepted up to the capacity. -/
theorem Encodes.encAccepts_iff (h : E.Encodes k m) (bs : List Byte) (hle : m.length ≤ k.capacity) :
    E.encAccepts k bs = true ↔ m.length + bs.length ≤ k.capacity := by
  induction bs generalizing E m with
  | nil => simpa [CodecBuf.encAccepts] using hle
  | cons b bs ih =>
    rw [CodecBuf.encAccepts, Bool.and_eq_true, h.hasRoom_iff, List.length_cons]
    by_cases hlt : m.length < k.capacity
    · have hnext := ih (h.encPush b hlt) (by rw [List.length_append, List.length_singleton]; omega)
      rw [List.length_append, List.length_singleton] at hnext
      rw [hnext]
      omega
    · simp only [hlt, false_and, false_iff]
      omega

/-- A message pushed into a flushed buffer. -/
theorem encodes_of_length_le (k : Kind) {m : List Byte} (hle : m.length ≤ k.capacity) :
    (CodecBuf.empty.encPushAll k m).Encodes k m :=
  (empty_encodes k).encPushAll m (by simpa using hle)

theorem empty_encAccepts_iff (k : Kind) (m : List Byte) :
    CodecBuf.empty.encAccepts k m = true ↔ m.length ≤ k.capacity := by
  simpa using (empty_encodes k).encAccepts_iff m (Nat.zero_le _)

theorem Encodes.length_bytes (h : E.Encodes k m) :
    E.bytes.length = k.rowIndex m.length + if m.length % k.group = 0 then 0 else 1 := by
  rw [h.ok.length_eq, h.count_eq, h.step_eq]

/-- The bytes of the buffer hold as many original bytes as were pushed. -/
theorem Encodes.originalCount (h : E.Encodes k m) : E.bytes.length * k.width / 8 = m.length := by
  rw [h.length_bytes, k.count_of_rowIndex]

/-- `END` closes the buffer: all its bytes, and the terminator. -/
theorem Encodes.encEnd_eq (h : E.Encodes k m) (hlt : m.length < k.capacity) :
    E.encEnd k = ⟨E.bytes ++ [k.terminator], E.bytes.length + 1, 0, E.crc⟩ :=
  encEnd_of_room h.ok (h.hasEndRoom_iff.mpr hlt)

theorem Encodes.complete_encEnd (h : E.Encodes k m) (hlt : m.length < k.capacity) :
    (E.encEnd k).complete = E.bytes ++ [k.terminator] := by
  rw [h.encEnd_eq hlt, CodecBuf.complete, List.take_of_length_le (by simp)]

end CodecBuf

end Sys2Proof.Machine

/-! ## The alphabet of the encoders (R105) -/

namespace Sys2Proof.Machine

/-- A byte is of a kind's payload class if the bits above its payload are the tag. -/
theorem isPayload_iff (k : Kind) (b : Byte) : k.isPayload b = true ↔ b &&& ~~~k.mask = k.tag := by
  cases k with
  | ack => exact beq_iff_eq
  | data => exact beq_iff_eq

/-- Or-ing in payload bits keeps the class. -/
theorem isPayload_or {k : Kind} {b x : Byte} (hb : k.isPayload b = true) (hx : payloadBits k x = x) :
    k.isPayload (b ||| x) = true := by
  rw [isPayload_iff] at *
  have hor : (b ||| x) &&& ~~~k.mask = (b &&& ~~~k.mask) ||| (x &&& ~~~k.mask) := by
    ext i
    simp [Bool.and_or_distrib_right]
  have hclear : x &&& ~~~k.mask = 0#8 := by
    rw [← hx, payloadBits, BitVec.and_assoc, BitVec.and_not_self]
    exact BitVec.and_zero
  rw [hor, hb, hclear, BitVec.or_zero]

theorem isPayload_tag (k : Kind) : k.isPayload k.tag = true := by cases k <;> rfl

theorem payloadBits_hiPart (k : Kind) (s : Nat) (b : Byte) : payloadBits k (hiPart k s b) = hiPart k s b := by
  apply BitVec.eq_of_getLsbD_eq
  intro i _
  rw [getLsbD_payloadBits, hiPart, BitVec.getLsbD_ushiftRight]
  by_cases hi : i < k.width
  · simp [hi]
  · have hout : 8 ≤ k.d * (s + 1) + i := by
      have hd : k.d ≤ k.d * (s + 1) := Nat.le_mul_of_pos_right _ s.succ_pos
      have := k.width_add_d
      omega
    simp [hi, BitVec.getLsbD_of_ge _ _ hout]

theorem payloadBits_loPart (k : Kind) (s : Nat) (b : Byte) : payloadBits k (loPart k s b) = loPart k s b := by
  rw [payloadBits, loPart, BitVec.and_assoc, BitVec.and_self]

theorem encPush_isPayload {k : Kind} {E : CodecBuf} (hok : E.EncOk k) (h : ∀ x ∈ E.bytes, k.isPayload x = true)
    (b : Byte) :
    ∀ x ∈ (E.encPush k b).bytes, k.isPayload x = true := by
  by_cases hroom : E.hasRoom k = true
  · have hinWork : k.isPayload (E.inWork k) = true := by
      unfold CodecBuf.inWork
      split
      · exact isPayload_tag k
      · next hstep =>
        have hlt : E.count < E.bytes.length := by rw [hok.length_eq, if_neg hstep]; omega
        rw [CodecBuf.get, List.getD_eq_getElem _ _ hlt]
        exact h _ (List.getElem_mem hlt)
    intro x hx
    rw [encPush_bytes b hroom, List.mem_append, List.mem_pair] at hx
    rcases hx with hold | rfl | rfl
    · exact h x (List.mem_of_mem_take hold)
    · exact isPayload_or hinWork (payloadBits_hiPart k E.step b)
    · exact isPayload_or (isPayload_tag k) (payloadBits_loPart k E.step b)
  · rw [encPush_full k E b ((hasRoom_eq_false_iff k E).mp (Bool.eq_false_iff.mpr hroom))]
    exact h

theorem encPushAll_isPayload {k : Kind} (bs : List Byte) {E : CodecBuf} (hok : E.EncOk k)
    (h : ∀ x ∈ E.bytes, k.isPayload x = true) : ∀ x ∈ (E.encPushAll k bs).bytes, k.isPayload x = true := by
  induction bs generalizing E with
  | nil => exact h
  | cons b bs ih => exact ih (encPush_encOk k E b hok) (encPush_isPayload hok h b)

theorem empty_encPushAll_isPayload (k : Kind) (m : List Byte) :
    ∀ x ∈ (CodecBuf.empty.encPushAll k m).bytes, k.isPayload x = true :=
  encPushAll_isPayload m (empty_encOk k) (fun _ hx => by cases hx)

/-- Settles O31: the payload classes by their ranges. -/
theorem encodedBytesStayInTheirAlphabet : Obligations.EncodedBytesStayInTheirAlphabet := by
  refine fun m => ⟨fun b hb => ?_, fun b hb => ?_⟩
  · have hack : isAckByte b = true := empty_encPushAll_isPayload .ack m b hb
    rwa [isAckByte_eq_range, decide_eq_true_iff] at hack
  · have hdata : isDataByte b = true := empty_encPushAll_isPayload .data m b hb
    rwa [isDataByte_eq_range, decide_eq_true_iff] at hdata

/-! ## Random access (R94, R95) -/

/-- A frame's original byte count is that of its payload bytes. -/
theorem originalCount_frame {k : Kind} {p : List Byte} {x : Byte} (hp : ∀ b ∈ p, k.isPayload b = true)
    (hx : k.isPayload x = false) : originalCount k (p ++ [x]) = p.length * k.width / 8 := by
  rw [originalCount, List.takeWhile_append_of_pos hp, List.takeWhile_cons_of_neg (by simp [hx]), List.append_nil]

/-- Below that count the terminator is not read. -/
theorem originalByte_frame {k : Kind} {p : List Byte} {n : Nat} (hn : n < p.length * k.width / 8) (x : Byte) :
    originalByte k (frameByte (p ++ [x])) n = originalByte k (frameByte p) n := by
  have hlt := k.rowIndex_succ_lt n hn
  exact originalByte_congr k (frameByte_append_of_lt p [x] (by omega)) (frameByte_append_of_lt p [x] hlt)

theorem frameByte_getElem? {p : List Byte} {i : Nat} (h : i < p.length) : p[i]? = some (frameByte p i) := by
  rw [frameByte, List.getD_eq_getElem _ _ h, List.getElem?_eq_getElem h]

/-- An original byte as a number. -/
theorem originalByte_setWidth (k : Kind) (E : Nat → Byte) (n : Nat) : (originalByte k E n).setWidth 32 =
    BitVec.ofNat 32 (((E (k.rowIndex n)).toNat % 2 ^ k.width * 2 ^ (k.d * (n % k.group + 1)) |||
      (E (k.rowIndex n + 1)).toNat % 2 ^ k.width / 2 ^ (k.width - k.d * (n % k.group + 1))) % 256) := by
  rw [originalByte_eq, seeding_eq_ofNat, completing_eq_ofNat, ← BitVec.ofNat_toNat, BitVec.toNat_or, BitVec.toNat_ofNat,
    BitVec.toNat_ofNat, ← Nat.or_mod_two_pow]

theorem exec_decodeA_frame {p : List Byte} {x : Byte} (hp : ∀ b ∈ p, isAckByte b = true) (hx : isAckByte x = false)
    (n : BitVec 16) (s : State) : exec (.decodeA (p ++ [x]) n) s =
      .next (if n.toNat < p.length * 6 / 8 then s.result ((originalByte .ack (frameByte p) n.toNat).setWidth 32)
        else s.refuse) := by
  have hcount : originalCount .ack (p ++ [x]) = p.length * 6 / 8 := originalCount_frame hp hx
  rw [exec, execDecodeA, hcount]
  split
  · next hlt => rw [← originalByte_frame (k := .ack) hlt x]; rfl
  · rfl

theorem exec_decodeD_frame {p : List Byte} {x : Byte} (hp : ∀ b ∈ p, isDataByte b = true) (hx : isDataByte x = false)
    (n : BitVec 16) (s : State) : exec (.decodeD (p ++ [x]) n) s =
      .next (if n.toNat < p.length * 7 / 8 then s.result ((originalByte .data (frameByte p) n.toNat).setWidth 32)
        else s.refuse) := by
  have hcount : originalCount .data (p ++ [x]) = p.length * 7 / 8 := originalCount_frame hp hx
  rw [exec, execDecodeD, hcount]
  split
  · next hlt => rw [← originalByte_frame (k := .data) hlt x]; rfl
  · rfl

/-- Settles O27: the random-access decode reads two payload bytes, and is refused at and above the count. -/
theorem randomAccessDecodeResult : Obligations.RandomAccessDecodeResult := by
  refine ⟨fun s p x n hp hx => ?_, fun s p x n hp hx => ?_⟩
  · rw [exec_decodeA_frame hp hx]
    refine ⟨fun h => ?_, fun h => by rw [if_neg (by omega)]; rfl⟩
    have hlt : n.toNat < p.length * 6 / 8 := by omega
    have hidx := Kind.rowIndex_succ_lt .ack _ hlt
    have hwidth : Kind.ack.width - Kind.ack.d * (n.toNat % Kind.ack.group + 1) = 4 - 2 * (n.toNat % 3) := by
      simp only [Kind.width, Kind.d, Kind.group]
      omega
    rw [if_pos hlt, originalByte_setWidth, hwidth]
    exact ⟨_, _, _, rfl, frameByte_getElem? (Nat.lt_of_succ_lt hidx), frameByte_getElem? hidx, rfl⟩
  · rw [exec_decodeD_frame hp hx]
    refine ⟨fun hlt => ?_, fun hge => by rw [if_neg (Nat.not_lt.mpr hge)]; rfl⟩
    have hidx := Kind.rowIndex_succ_lt .data _ hlt
    have hwidth : Kind.data.width - Kind.data.d * (n.toNat % Kind.data.group + 1) = 6 - n.toNat % 7 := by
      simp only [Kind.width, Kind.d, Kind.group]
      omega
    rw [if_pos hlt, originalByte_setWidth, hwidth, Kind.d, Nat.one_mul]
    exact ⟨_, _, _, rfl, frameByte_getElem? (Nat.lt_of_succ_lt hidx), frameByte_getElem? hidx, rfl⟩

/-- What random access reads of a message in an encode buffer. -/
theorem CodecBuf.Encodes.originalByte_getElem? {k : Kind} {E : CodecBuf} {m : List Byte} (h : E.Encodes k m) {n : Nat}
    {x : Byte} (hx : m[n]? = some x) :
    n < E.bytes.length * k.width / 8 ∧ originalByte k (frameByte E.bytes) n = x := by
  obtain ⟨hn, hget⟩ := List.getElem?_eq_some_iff.mp hx
  exact ⟨h.originalCount ▸ hn, (h.original n hn).trans hget⟩

/-- Settles O28: the encode buffer's invariant says what random access reads. -/
theorem randomAccessAgreesWithEncoder : Obligations.RandomAccessAgreesWithEncoder := by
  intro s m n x hx
  have hn : n < m.length := (List.getElem?_eq_some_iff.mp hx).1
  refine ⟨fun hle => ?_, fun hle => ?_⟩
  · have henc := CodecBuf.encodes_of_length_le .ack (Nat.le_succ_of_le hle)
    obtain ⟨(hlt : n < _ * 6 / 8), hbyte⟩ := henc.originalByte_getElem? hx
    have hidx : (BitVec.ofNat 16 n).toNat = n := Nat.mod_eq_of_lt (by omega)
    rw [henc.complete_encEnd (Nat.lt_succ_of_le hle), exec_decodeA_frame (empty_encPushAll_isPayload .ack m) rfl, hidx,
      if_pos hlt, hbyte]
    rfl
  · have henc := CodecBuf.encodes_of_length_le .data (Nat.le_succ_of_le hle)
    obtain ⟨(hlt : n < _ * 7 / 8), hbyte⟩ := henc.originalByte_getElem? hx
    have hidx : (BitVec.ofNat 16 n).toNat = n := Nat.mod_eq_of_lt (by omega)
    rw [henc.complete_encEnd (Nat.lt_succ_of_le hle), exec_decodeD_frame (empty_encPushAll_isPayload .data m) rfl, hidx,
      if_pos hlt, hbyte]
    rfl

end Sys2Proof.Machine

/-! ## What a decode buffer holds (R90, R91) -/

namespace Sys2Proof.Machine

/-- The buffer is what accepted pushes of the encoded bytes `es` leave of a flushed one: it holds the original bytes
that random access reads out of `es`, and the opened part of the next. -/
structure CodecBuf.Decodes (k : Kind) (D : CodecBuf) (es : List Byte) : Prop where
  ok : D.DecOk k
  crc : D.CrcOk
  count_eq : D.count = es.length * k.width / 8
  step_eq : D.step = es.length % k.positions
  inWork : D.step ≠ 0 → D.get D.count = seeding k (D.step - 1) (payloadBits k (frameByte es (es.length - 1)))
  original : ∀ n, n < D.count → D.get n = originalByte k (frameByte es) n

namespace CodecBuf

theorem empty_decodes (k : Kind) : CodecBuf.empty.Decodes k [] where
  ok := empty_decOk k
  crc := empty_crcOk
  count_eq := by cases k <;> rfl
  step_eq := by cases k <;> rfl
  inWork := fun h => absurd rfl h
  original := fun _ h => absurd h (Nat.not_lt_zero _)

variable {k : Kind} {D : CodecBuf} {es : List Byte}

/-- A push at a position other than 0 completes what random access reads of the last two encoded bytes. -/
theorem Decodes.completed_eq (h : D.Decodes k es) (e : Byte) (hstep : D.step ≠ 0) :
    D.completed k e = originalByte k (frameByte (es ++ [e])) D.count := by
  obtain ⟨hindex, hposition⟩ := k.rowIndex_inWork es.length (h.step_eq ▸ hstep)
  rw [← h.count_eq] at hindex hposition
  rw [← h.step_eq] at hposition
  have hfirst : k.rowIndex D.count = es.length - 1 := by omega
  have hpos : es.length - 1 < es.length := by omega
  rw [CodecBuf.completed, h.inWork hstep, originalByte_eq, hindex, hfirst, frameByte_append_length,
    frameByte_append_of_lt es [e] hpos, ← hposition, Nat.add_sub_cancel]

theorem Decodes.decPush (h : D.Decodes k es) (e : Byte) (hlt : es.length < k.cap) :
    (D.decPush k e).Decodes k (es ++ [e]) := by
  have hroom : D.hasRoom k = true := (hasRoom_iff k D).mpr (h.count_eq ▸ k.decodeRoom es.length hlt)
  have hlen : (es ++ [e]).length = es.length + 1 := by simp
  refine ⟨decPush_decOk k D e h.ok, decPush_crcOk k D e h.ok h.crc, ?_, ?_, fun hstep => ?_, fun n hn => ?_⟩
  · rw [hlen, k.count_succ, ← h.step_eq, ← h.count_eq, decPush_count e hroom]
  · rw [hlen, k.mod_positions_succ, ← h.step_eq, decPush_step e hroom]
  · have hmore : D.step + 1 < k.positions := by
      by_contra hlast
      exact hstep ((decPush_step e hroom).trans (if_neg hlast))
    rw [decPush_get_opened e hroom h.ok hmore, decPush_step e hroom, if_pos hmore, hlen, Nat.add_sub_cancel,
      Nat.add_sub_cancel, frameByte_append_length]
  · have hcount := decPush_count e hroom
    by_cases hold : n < D.count
    · have hbelow := k.rowIndex_succ_lt n (h.count_eq ▸ hold)
      rw [decPush_get_of_lt e hroom h.ok hold, h.original n hold]
      exact originalByte_congr k (frameByte_append_of_lt es [e] (by omega)).symm
        (frameByte_append_of_lt es [e] hbelow).symm
    · have hstep : D.step ≠ 0 := fun h0 => by rw [if_pos h0] at hcount; omega
      have hnew : n = D.count := by rw [if_neg hstep] at hcount; omega
      rw [hnew, decPush_get_completed e hroom h.ok hstep, h.completed_eq e hstep]

theorem Decodes.foldl (h : D.Decodes k es) (bs : List Byte) (hle : es.length + bs.length ≤ k.cap) :
    (bs.foldl (CodecBuf.decPush k) D).Decodes k (es ++ bs) := by
  induction bs generalizing D es with
  | nil => simpa using h
  | cons b bs ih =>
    rw [List.length_cons] at hle
    have hnext := ih (h.decPush b (by omega)) (by rw [List.length_append, List.length_singleton]; omega)
    rwa [List.append_assoc, List.singleton_append] at hnext

/-- Encoded bytes that fit a buffer, fed to a flushed decoder. -/
theorem decoded_decodes {bs : List Byte} (hle : bs.length ≤ k.cap) : (decoded k bs).Decodes k bs :=
  (empty_decodes k).foldl bs (by simpa using hle)

/-! ## The round trip (R104) -/

/-- The round trip of the codecs: the sequential decoder holds what random access reads, which is what was pushed. -/
theorem Encodes.decoded_bytes {E : CodecBuf} {m : List Byte} (h : E.Encodes k m) :
    (decoded k E.bytes).count = m.length ∧ (decoded k E.bytes).complete = m ∧
    (decoded k E.bytes).crc = crcOver 0xFFFFFFFF m := by
  have hdec := decoded_decodes h.ok.fits
  have hcount := hdec.count_eq.trans h.originalCount
  have hcomplete : (decoded k E.bytes).complete = m := by
    apply List.ext_getElem
    · rw [CodecBuf.complete, List.length_take_of_le hdec.ok.count_le, hcount]
    · intro n _ hn
      have hlt : n < (decoded k E.bytes).count := hcount ▸ hn
      have hget := hdec.original n hlt
      rw [← get_eq_frameByte, h.original n hn, CodecBuf.get,
        List.getD_eq_getElem _ _ (Nat.lt_of_lt_of_le hlt hdec.ok.count_le)] at hget
      rw [← hget]
      exact List.getElem_take
  exact ⟨hcount, hcomplete, hdec.crc.trans (congrArg _ hcomplete)⟩

/-- A message with its CRC behind it. -/
theorem Encodes.encPush32_crc {E : CodecBuf} {m : List Byte} (h : E.Encodes k m) (hle : m.length + 4 ≤ k.capacity) :
    (E.encPush32 k E.crc).Encodes k (m ++ wordBytes (crcOver 0xFFFFFFFF m)) := by
  rw [← h.crc_eq]
  exact h.encPushAll (wordBytes E.crc) hle

/-- A frame, its terminator left off, decodes to its message and the CRC, with a zero register (R81). -/
theorem Encodes.frame_decodes {E : CodecBuf} {m : List Byte} (h : E.Encodes k m) (hlt : m.length + 4 < k.capacity) :
    ((E.encPush32 k E.crc).encEnd k).complete.getLast? = some k.terminator ∧
    (decoded k ((E.encPush32 k E.crc).encEnd k).complete.dropLast).count = m.length + 4 ∧
    (decoded k ((E.encPush32 k E.crc).encEnd k).complete.dropLast).complete = m ++ wordBytes (crcOver 0xFFFFFFFF m) ∧
    (decoded k ((E.encPush32 k E.crc).encEnd k).complete.dropLast).crc = 0 := by
  have hcrc := h.encPush32_crc (Nat.le_of_lt hlt)
  have hlen : (m ++ wordBytes (crcOver 0xFFFFFFFF m)).length = m.length + 4 := List.length_append
  obtain ⟨hcount, hcomplete, hzero⟩ := hcrc.decoded_bytes
  rw [hcrc.complete_encEnd (hlen ▸ hlt), List.dropLast_concat]
  exact ⟨List.getLast?_concat, hcount.trans hlen, hcomplete, hzero.trans (crcResidueIsZero.2 m)⟩

end CodecBuf

/-- A complete byte is read from its index. -/
theorem get_of_complete {D : CodecBuf} {i : Nat} {x : Byte} (h : D.complete[i]? = some x) : D.get i = x := by
  have hbyte : D.bytes[i]? = some x := by
    rw [CodecBuf.complete, List.getElem?_take] at h
    split at h
    · exact h
    · cases h
  rw [CodecBuf.get, List.getD_eq_getElem?_getD, hbyte, Option.getD_some]

/-- The sequence number of an ACK frame, pushed into a flushed buffer. -/
theorem encodes_ackSeq (seq : Byte) : (CodecBuf.empty.encPush .ack seq).Encodes .ack [seq] :=
  (CodecBuf.empty_encodes .ack).encPush seq (by decide)

/-- Settles O29: both kinds of frame are a message with its CRC. -/
theorem encodedFramesDecode : Obligations.EncodedFramesDecode := by
  refine ⟨fun m hle => ?_, fun seq => ?_⟩
  · have henc := CodecBuf.encodes_of_length_le .data (show m.length ≤ 308 by omega)
    obtain ⟨hlast, hcount, hcomplete, hcrc⟩ := henc.frame_decodes (show m.length + 4 < 308 by omega)
    refine ⟨_, _, rfl, hlast, rfl, hcount, ?_, hcrc⟩
    have htake := congrArg (List.take m.length) hcomplete
    rwa [CodecBuf.complete, List.take_take, Nat.min_eq_left (by omega), List.take_left] at htake
  · obtain ⟨hlast, hcount, hcomplete, hcrc⟩ := (encodes_ackSeq seq).frame_decodes (show 1 + 4 < 12 by decide)
    exact ⟨hlast, hcount, get_of_complete (hcomplete ▸ rfl), hcrc⟩

/-! ## The lengths (R103) -/

/-- The encoded bytes of `n` original bytes: `P` for every `G`, rounded up. -/
theorem Kind.rowIndex_add_inWork (k : Kind) (n : Nat) :
    k.rowIndex n + (if n % k.group = 0 then 0 else 1) = (k.positions * n + (k.group - 1)) / k.group := by
  split <;> cases k <;> simp only [Kind.rowIndex, Kind.group, Kind.positions] at * <;> omega

namespace CodecBuf

variable {k : Kind} {E : CodecBuf} {m : List Byte}

/-- The count after `END`: the bytes of the message, the partly filled one included, and the terminator. -/
theorem Encodes.count_encEnd (h : E.Encodes k m) (hlt : m.length < k.capacity) :
    (E.encEnd k).count = (k.positions * m.length + (k.group - 1)) / k.group + 1 := by
  rw [h.encEnd_eq hlt, h.length_bytes, k.rowIndex_add_inWork]

/-- The count of a frame. -/
theorem Encodes.count_frame (h : E.Encodes k m) (hlt : m.length + 4 < k.capacity) :
    ((E.encPush32 k E.crc).encEnd k).count = (k.positions * (m.length + 4) + (k.group - 1)) / k.group + 1 := by
  have hlen : (m ++ wordBytes (crcOver 0xFFFFFFFF m)).length = m.length + 4 := List.length_append
  rw [(h.encPush32_crc (Nat.le_of_lt hlt)).count_encEnd (hlen ▸ hlt), hlen]

/-- A message and its terminator are accepted below the capacity. -/
theorem empty_encAcceptsEnd_iff (k : Kind) (m : List Byte) :
    (CodecBuf.empty.encAccepts k m && (CodecBuf.empty.encPushAll k m).hasEndRoom k) = true ↔ m.length < k.capacity := by
  rw [Bool.and_eq_true, empty_encAccepts_iff]
  constructor
  · rintro ⟨hle, hend⟩
    exact (encodes_of_length_le k hle).hasEndRoom_iff.mp hend
  · intro hlt
    exact ⟨Nat.le_of_lt hlt, (encodes_of_length_le k (Nat.le_of_lt hlt)).hasEndRoom_iff.mpr hlt⟩

end CodecBuf

/-- Settles O30: the capacities are 12 and 308 original bytes. -/
theorem encodedLengths : Obligations.EncodedLengths := by
  have hend (k : Kind) {m : List Byte} (hlt : m.length < k.capacity) :=
    (CodecBuf.encodes_of_length_le k (Nat.le_of_lt hlt)).count_encEnd hlt
  refine ⟨fun m => ⟨CodecBuf.empty_encAccepts_iff .data m, ?_, fun hle => hend .data (Nat.lt_succ_of_le hle),
    CodecBuf.empty_encAccepts_iff .ack m, ?_, fun hle => hend .ack (Nat.lt_succ_of_le hle)⟩,
    fun seq => ?_, fun seq ch p hle => ?_⟩
  · exact (CodecBuf.empty_encAcceptsEnd_iff .data m).trans Nat.lt_succ_iff
  · exact (CodecBuf.empty_encAcceptsEnd_iff .ack m).trans Nat.lt_succ_iff
  · exact ((encodes_ackSeq seq).count_frame (show 1 + 4 < 12 by decide)).trans
      (show (4 * (1 + 4) + (3 - 1)) / 3 + 1 = 8 by decide)
  · have henc := CodecBuf.encodes_of_length_le .data (show (seq :: ch :: p).length ≤ 308 by simp; omega)
    exact henc.count_frame (show (seq :: ch :: p).length + 4 < 308 by simp; omega)

end Sys2Proof.Machine

/-! ## The channel commands (41_channel.md) -/

namespace Sys2Proof.Machine

/-! ### The common precondition (R115), and a slot that is written -/

theorem onChannel_of_closed {s : State} {id : Byte} (h : s.channel id.toNat = none) (f : Channel → State) :
    s.onChannel id f = s.refuse := by
  rw [State.onChannel, h]

theorem onChannel_of_open {s : State} {id : Byte} {c : Channel} (h : s.channel id.toNat = some c)
    (f : Channel → State) : s.onChannel id f = f c := by
  rw [State.onChannel, h]

theorem channel_answer_setChannel {s : State} {id : Nat} {c : Channel} (h : s.channel id = some c)
    (d : Option Channel) (st : Status) (v : Value) :
    ((s.setChannel id d).answer st v).channel id = d ∧
      ∀ j, j ≠ id → ((s.setChannel id d).answer st v).channel j = s.channel j :=
  ⟨channel_setChannel_same s id d (lt_of_channel_some s id c h), fun j hj => channel_setChannel_ne s id j d hj.symm⟩

/-- Settles O34: a slot above 7 is closed, and the common precondition stands before all five commands. -/
theorem closedSlotCommandsRefused : Obligations.ClosedSlotCommandsRefused := by
  intro s id i hslot hi
  have hclosed : s.channel id.toNat = none := hslot.elim (channel_none_of_ge s id.toNat) fun h => h
  rcases hi with ⟨len, more, data, rfl⟩ | ⟨rx, rfl⟩ | rfl | rfl | rfl
  all_goals exact congrArg Host.Outcome.next (onChannel_of_closed hclosed _)

/-! ### SEND and TXSPACE (R110, R113, R116) -/

/-- An offer is as long as its operand `len` says, so its short count is the room left. -/
theorem length_accepted (c : Channel) {len : BitVec 16} {data : List Byte} (h : data.length = len.toNat) :
    (c.accepted len data).length = min len.toNat c.space := by
  rw [Channel.accepted, List.length_take, h]
  omega

theorem exec_send_open {s : State} {id : Byte} {len : BitVec 16} {data : List Byte} {c : Channel}
    (h : s.channel id.toNat = some c) (hlen : data.length = len.toNat) (more : Bool) :
    exec (.send id len more data) s =
      .next ((s.setChannel id.toNat (some { c with q := c.q ++ c.accepted len data, more := more })).result
        (BitVec.ofNat 32 (min len.toNat c.space))) := by
  rw [← length_accepted c hlen]
  exact congrArg Host.Outcome.next (onChannel_of_open h _)

theorem exec_txspace_open {s : State} {id : Byte} {c : Channel} (h : s.channel id.toNat = some c) :
    exec (.txspace id) s = .next (s.result (BitVec.ofNat 32 c.space)) :=
  congrArg Host.Outcome.next (onChannel_of_open h _)

/-- Settles O35: `SEND` writes its own slot. -/
theorem sendQueuesWhatFits : Obligations.SendQueuesWhatFits := by
  intro s id len more data c h hlen
  exact ⟨_, _, rfl, exec_send_open h hlen more, rfl, channel_answer_setChannel h _ _ _⟩

/-- Settles O39: the queue that `SEND` leaves is longer by the count it answers. -/
theorem txspaceFallsByWhatSendAccepts : Obligations.TxspaceFallsByWhatSendAccepts := by
  refine ⟨fun s id c h => exec_txspace_open h, fun s id len more data c h _ hlen => ?_⟩
  obtain ⟨hslot, -⟩ := channel_answer_setChannel h (some { c with q := c.q ++ c.accepted len data, more := more }) .ok
    (.num (BitVec.ofNat 32 (min len.toNat c.space)))
  have hspace : 1024 - (c.q ++ c.accepted len data).length = 1024 - c.q.length - min len.toNat c.space := by
    rw [List.length_append, length_accepted c hlen, Nat.sub_add_eq]
  have hcap : c.space = 1024 - c.q.length := rfl
  refine ⟨_, _, min len.toNat c.space, exec_send_open h hlen more, rfl, exec_txspace_open hslot, ?_, ?_, ?_⟩
  · rw [← hspace]
    rfl
  · exact Nat.min_le_right _ _
  · omega

/-! ### SETRX, TXFLUSH, TXSIZE and GETNACK (R111, R114, R112, R129) -/

/-- Settles O36: `SETRX` writes its own slot, with the receiver that the form of its operand names. -/
theorem setrxReplacesTheReceiver : Obligations.SetrxReplacesTheReceiver := by
  intro s id c op h
  obtain ⟨hslot, hother⟩ := channel_answer_setChannel h (some { c with rx := rxOf op }) .ok .none
  refine ⟨_, congrArg Host.Outcome.next (onChannel_of_open h _), rfl, ?_, ?_, hother⟩
  · rintro rx rfl
    exact hslot
  · rintro rx (rfl | rfl) <;> exact hslot

/-- Settles O37: `TXFLUSH` writes its own slot. -/
theorem txflushEmptiesTheQueue : Obligations.TxflushEmptiesTheQueue := by
  intro s id c h
  exact ⟨_, congrArg Host.Outcome.next (onChannel_of_open h _), rfl, channel_answer_setChannel h _ _ _⟩

/-- Settles O38: `TXSIZE` asks only that the slot is open, and `GETNACK` nothing. -/
theorem txsizeAndGetnackResults : Obligations.TxsizeAndGetnackResults := by
  refine ⟨fun s id hopen => ?_, fun s => rfl⟩
  obtain ⟨c, h⟩ := Option.ne_none_iff_exists'.mp hopen
  exact congrArg Host.Outcome.next (onChannel_of_open h _)

end Sys2Proof.Machine

/-! ## The scheduler (42_scheduler.md) -/

namespace Sys2Proof.Machine

/-! ### The scheduler's tests as arithmetic (R122, R123) -/

theorem timedOut_iff (now deadline : Time) : timedOut now deadline = true ↔ (now - deadline).toNat < 2 ^ 31 := by
  simp [timedOut, BitVec.msb_eq_decide]

theorem eligible_iff (c : Channel) : c.eligible = true ↔ readyToSend c := by
  simp only [Channel.eligible, Bool.or_eq_true, Bool.and_eq_true, decide_eq_true_eq, Bool.not_eq_true']
  rfl

/-- The search goes upward from slot 0, so the lowest ready channel is found. -/
theorem firstEligible_of_lowest {s : State} {id : Nat} {c : Channel} (hc : s.channel id = some c)
    (hready : readyToSend c) (hlower : ∀ j d, j < id → s.channel j = some d → ¬ readyToSend d) :
    s.firstEligible = some (id, c) := by
  obtain ⟨n, hn⟩ : ∃ n, 8 = id + (1 + n) := ⟨7 - id, by have := lt_of_channel_some s id c hc; omega⟩
  rw [State.firstEligible, List.findSome?_eq_some_iff]
  refine ⟨List.range id, id, (List.range n).map (id + 1 + ·), ?_, ?_, fun j hj => ?_⟩
  · rw [hn, List.range_add, List.range_add]
    simp [Nat.add_assoc]
  · simp [hc, (eligible_iff c).mpr hready]
  · cases hd : s.channel j with
    | none => rfl
    | some d => simp [(eligible_iff d).not.mpr (hlower j d (List.mem_range.mp hj) hd)]

theorem firstEligible_eq_none_iff (s : State) :
    s.firstEligible = none ↔ ∀ id c, s.channel id = some c → ¬ readyToSend c := by
  rw [State.firstEligible, List.findSome?_eq_none_iff]
  refine ⟨fun h id c hc hready => ?_, fun h id _ => ?_⟩
  · have hnone := h id (List.mem_range.mpr (lt_of_channel_some s id c hc))
    simp [hc, (eligible_iff c).mpr hready] at hnone
  · cases hc : s.channel id with
    | none => rfl
    | some c => simp [(eligible_iff c).not.mpr (h id c hc)]

/-! ### `GETNEXT`, one equation per step (R120 to R125) -/

section getnext

variable {s : State} {now : Time}

theorem exec_getnext_eq {r : Option Frame × State} (h : s.getNext now = r) :
    exec (.getnext now) s = .next (r.2.answerFrame r.1) := by
  subst h
  rfl

theorem getNext_of_ack (hack : 0 < s.ackQ.len) : s.getNext now = s.sendQueuedAck := by
  rw [State.getNext, if_pos hack]

variable (hack : s.ackQ.len = 0)
include hack

theorem getNext_of_due (hwin : 0 < s.win.len) (hdue : (now - s.win.slots[0].deadline).toNat < 2 ^ 31) :
    s.getNext now = s.retransmit now := by
  rw [State.getNext, if_neg (Nat.not_lt.mpr (Nat.le_of_eq hack)), if_pos ⟨hwin, (timedOut_iff _ _).mpr hdue⟩]

variable (hdue : ¬ (0 < s.win.len ∧ (now - s.win.slots[0].deadline).toNat < 2 ^ 31))
include hdue

theorem getNext_of_ready {id : Nat} {c : Channel} (hfirst : s.firstEligible = some (id, c)) (hfree : s.win.len < 3) :
    s.getNext now = s.buildNew now id c ⟨s.win.len, hfree⟩ := by
  rw [← timedOut_iff] at hdue
  rw [State.getNext, if_neg (Nat.not_lt.mpr (Nat.le_of_eq hack)), Fifo.head, if_neg hdue, hfirst]
  exact dif_pos hfree

theorem getNext_of_nothing (hnothing : 3 ≤ s.win.len ∨ s.firstEligible = none) : s.getNext now = (none, s) := by
  rw [← timedOut_iff] at hdue
  rw [State.getNext, if_neg (Nat.not_lt.mpr (Nat.le_of_eq hack)), Fifo.head, if_neg hdue]
  cases hfirst : s.firstEligible with
  | none => rfl
  | some p =>
    have hfull : 3 ≤ s.win.len := hnothing.resolve_right (by simp [hfirst])
    exact dif_neg (Nat.not_lt.mpr hfull)

end getnext

/-- Settles O40: the pop moves the other entries one place to the head. -/
theorem getnextSendsTheOldestAck : Obligations.GetnextSendsTheOldestAck := by
  intro s now hack
  exact ⟨_, exec_getnext_eq (getNext_of_ack hack), rfl, rfl, rfl, rfl⟩

/-- Settles O41: only the oldest entry's deadline is written. -/
theorem getnextRetransmitsTheOldest : Obligations.GetnextRetransmitsTheOldest := by
  intro s now hack hwin hdue
  refine ⟨_, exec_getnext_eq (getNext_of_due hack hwin hdue), rfl, rfl, ?_, ?_, ?_⟩
  · exact put_slot_ne s.win (i := 0) (j := 1) _ (by decide)
  · exact put_slot_ne s.win (i := 0) (j := 2) _ (by decide)
  · exact put_slot_same s.win 0 _

/-- Settles O42: the search finds the lowest ready channel, and the frame goes behind the youngest entry. -/
theorem getnextFramesTheLowestReadyChannel : Obligations.GetnextFramesTheLowestReadyChannel := by
  intro s now id c dur hack hfree hdue hc hready hlower hdur
  have hfirst := firstEligible_of_lowest hc hready hlower
  have hduration : frameDuration (c.q.take maxPayload).length = dur := by
    rw [frameDuration, List.length_take, hdur, maxPayload]
  refine ⟨_, exec_getnext_eq (getNext_of_ready hack hdue hfirst hfree), rfl, ?_, fun j hj => ?_, rfl, fun j hj => ?_,
    fun j hj => ?_⟩
  · exact channel_setChannel_same s id _ (lt_of_channel_some s id c hc)
  · exact channel_setChannel_ne s id j _ hj.symm
  · exact (push_slot s.win _ j _).trans (if_neg fun h => hj (congrArg Fin.val h).symm)
  · rw [← hduration]
    exact (push_slot s.win _ j _).trans (if_pos (Fin.ext hj.symm))

/-- Settles O43: no step of `GETNEXT` applies. -/
theorem getnextNothingReady : Obligations.GetnextNothingReady := by
  intro s now hack hdue hnothing
  exact exec_getnext_eq (getNext_of_nothing hack hdue (hnothing.imp_right (firstEligible_eq_none_iff s).mpr))

/-- With one ACK queued and the oldest frame due, two calls at one time answer the ACK and that frame. -/
theorem getnext_ack_then_retransmit {s : State} {now : Time} (hack : s.ackQ.len = 1) (hwin : 0 < s.win.len)
    (hdue : (now - s.win.slots[0].deadline).toNat < 2 ^ 31) :
    ∃ t u, exec (.getnext now) s = .next t ∧ exec (.getnext now) t = .next u ∧
      u = { s with ackQ := u.ackQ, win := u.win, nackCount := u.nackCount, answers := u.answers } ∧
      u.answers = s.answers ++ [⟨.ok, .frame ⟨.ack, s.ackQ.slots[0].complete⟩⟩,
        ⟨.ok, .frame ⟨.data, s.win.slots[0].frame.complete⟩⟩] ∧
      u.ackQ.len = 0 ∧ u.win.len = s.win.len ∧ u.win.slots[0] = { s.win.slots[0] with deadline := rearmed now } :=
  ⟨_, _, exec_getnext_eq (getNext_of_ack (by omega)),
    exec_getnext_eq (getNext_of_due (Nat.sub_eq_zero_of_le (Nat.le_of_eq hack)) hwin hdue), rfl,
    List.append_assoc _ _ _, Nat.sub_eq_zero_of_le (Nat.le_of_eq hack), rfl, put_slot_same s.win 0 _⟩

/-- Settles O44: after the ACK and the retransmission, the re-armed deadline decides the third call. -/
theorem priorityLaw : Obligations.PriorityLaw := by
  intro s now id c hack hwin hdue hc hready hlower
  obtain ⟨t1, t2, h1, h2, ht2, hanswers2, hack2, hlen2, hhead2⟩ :=
    getnext_ack_then_retransmit hack (by omega) ((timedOut_iff _ _).mp hdue)
  have hframe2 : t2.win.slots[0].frame = s.win.slots[0].frame := by rw [hhead2]
  have hdeadline2 : t2.win.slots[0].deadline = rearmed now := by rw [hhead2]
  have hchannel2 (j : Nat) : t2.channel j = s.channel j := channel_congr s t2 (by rw [ht2]) j
  have hseq2 : t2.nextSeq = s.nextSeq := by rw [ht2]
  by_cases hagain : timedOut now (rearmed now) = true
  · obtain ⟨t3, h3, ht3, hlen3, -, -, hhead3⟩ := getnextRetransmitsTheOldest t2 now hack2 (by omega)
      ((timedOut_iff _ _).mp (hdeadline2 ▸ hagain))
    refine ⟨t1, t2, t3, _, h1, h2, h3, ?_, ?_, ?_, fun h => absurd hagain (Bool.eq_false_iff.mp h),
      fun _ => ⟨rfl, by omega⟩⟩
    · rw [ht3, hanswers2, hframe2]
      exact List.append_assoc _ _ _
    · rw [ht3, hack2]
    · rw [hhead3, ← hframe2]
  · obtain ⟨t3, h3, ht3, -, -, hlen3, hold3, -⟩ := getnextFramesTheLowestReadyChannel t2 now id c _ hack2 (by omega)
      (fun h => hagain (hdeadline2 ▸ (timedOut_iff _ _).mpr h.2)) ((hchannel2 id).trans hc) hready
      (fun j d hj hd => hlower j d hj ((hchannel2 j).symm.trans hd)) rfl
    have hhead3 : t3.win.slots[0] = t2.win.slots[0] := hold3 0 (by simp; omega)
    refine ⟨t1, t2, t3, _, h1, h2, h3, ?_, ?_, ?_, fun _ => ⟨rfl, by omega⟩, fun h => absurd h hagain⟩
    · rw [ht3, hanswers2, hseq2]
      exact List.append_assoc _ _ _
    · rw [ht3, hack2]
    · rw [hhead3, hframe2]

/-! ### The number inside a data frame (R126) -/

/-- The first original byte, as a number. -/
theorem originalByte_data_zero (E : Nat → Byte) :
    originalByte .data E 0 = BitVec.ofNat 8 ((E 0).toNat % 128 * 2 + (E 1).toNat % 128 / 64) := by
  have hlow : (E 1).toNat % 128 / 64 < 2 ^ 1 := by omega
  have hor := Nat.two_pow_add_eq_or_of_lt hlow ((E 0).toNat % 128)
  rw [Nat.mul_comm, Nat.pow_one] at hor
  rw [originalByte_eq, seeding_eq_ofNat, completing_eq_ofNat, hor, BitVec.ofNat_or]
  rfl

theorem seq_of_bytes {w : WinEntry} {x y : Byte} {rest : List Byte} (h : w.frame.bytes = x :: y :: rest) :
    w.seq = BitVec.ofNat 8 (x.toNat % 128 * 2 + y.toNat % 128 / 64) := by
  rw [WinEntry.seq, originalByte_data_zero, get_eq_frameByte, h]
  rfl

namespace CodecBuf

variable {k : Kind} {E : CodecBuf} {m : List Byte}

/-- Of a sequence of pushes the leading ones are accepted, as many as fit. -/
theorem Encodes.encPushAll_take (h : E.Encodes k m) (bs : List Byte) :
    (E.encPushAll k bs).Encodes k (m ++ bs.take (k.capacity - m.length)) := by
  induction bs generalizing E m with
  | nil => simpa [CodecBuf.encPushAll] using h
  | cons b bs ih =>
    by_cases hlt : m.length < k.capacity
    · have hnext := ih (h.encPush b hlt)
      rwa [List.append_assoc, List.singleton_append, List.length_append, List.length_singleton, ← Nat.sub_sub,
        ← List.take_cons (by omega)] at hnext
    · have hfull : E.encPush k b = E :=
        encPush_full k E b ((hasRoom_eq_false_iff k E).mp (Bool.eq_false_iff.mpr (h.hasRoom_iff.not.mpr hlt)))
      have hnext := ih h
      rw [Nat.sub_eq_zero_of_le (Nat.not_lt.mp hlt), List.take_zero] at hnext ⊢
      rw [← hfull] at hnext
      exact hnext

/-- `END` keeps what the buffer holds. -/
theorem Encodes.bytes_encEnd (h : E.Encodes k m) : ∃ tail, (E.encEnd k).bytes = E.bytes ++ tail := by
  cases hroom : E.hasEndRoom k with
  | false => exact ⟨[], by rw [encEnd_full hroom, List.append_nil]⟩
  | true => exact ⟨[k.terminator], by rw [encEnd_of_room h.ok hroom]⟩

end CodecBuf

/-- A data frame is a message with its CRC. -/
theorem builtData_eq (q ch : Byte) (p : List Byte) : builtData q ch p =
    ((CodecBuf.empty.encPushAll .data (q :: ch :: p)).encPush32 .data
      (CodecBuf.empty.encPushAll .data (q :: ch :: p)).crc).encEnd .data := rfl

/-- Whatever the payload's length, the number is the first byte that the frame holds. -/
theorem builtData_encodes (q ch : Byte) (p : List Byte) :
    ∃ (E : CodecBuf) (m : List Byte), E.Encodes .data (q :: m) ∧ builtData q ch p = E.encEnd .data := by
  have hmessage := (CodecBuf.empty_encodes .data).encPushAll_take (q :: ch :: p)
  exact ⟨_, _, hmessage.encPushAll_take _, builtData_eq q ch p⟩

theorem builtData_bytes (q ch : Byte) (p : List Byte) : ∃ x y rest, (builtData q ch p).bytes = x :: y :: rest ∧
    q = BitVec.ofNat 8 (x.toNat % 128 * 2 + y.toNat % 128 / 64) := by
  obtain ⟨E, m, henc, hbuilt⟩ := builtData_encodes q ch p
  obtain ⟨tail, htail⟩ := henc.bytes_encEnd
  obtain ⟨hcount, hbyte⟩ := henc.originalByte_getElem? (n := 0) rfl
  have hlen : 1 < E.bytes.length := Kind.rowIndex_succ_lt .data 0 hcount
  rw [originalByte_data_zero] at hbyte
  rw [hbuilt, htail]
  match E.bytes, hlen, hbyte with
  | x :: y :: rest, _, hbyte => exact ⟨x, y, rest ++ tail, rfl, hbyte.symm⟩

theorem seq_builtData (q ch : Byte) (p : List Byte) (deadline duration : Time) :
    WinEntry.seq ⟨builtData q ch p, deadline, duration⟩ = q := by
  obtain ⟨x, y, rest, hbytes, hq⟩ := builtData_bytes q ch p
  rw [seq_of_bytes (w := ⟨builtData q ch p, deadline, duration⟩) hbytes, ← hq]

/-! ### `ACKX` and `SCHEDACK` (R126, R127) -/

theorem ackMatches_iff (s : State) (seq : Byte) :
    s.ackMatches seq = true ↔ 0 < s.win.len ∧ s.win.slots[0].seq = seq := by
  simp [State.ackMatches, Fifo.head]

theorem exec_ackx_of_match {s : State} {seq : Byte} (hwin : 0 < s.win.len) (hseq : s.win.slots[0].seq = seq) :
    exec (.ackx seq) s = .next
      ({ s with win := s.win.pop { s.win.head with frame := CodecBuf.empty }, nackCount := 0 }.outcome true) := by
  have hmatch : s.ackMatches seq = true := (ackMatches_iff s seq).mpr ⟨hwin, hseq⟩
  rw [exec, execAckx, State.ackXfer, if_pos hmatch, hmatch]
  rfl

theorem exec_ackx_of_mismatch {s : State} {seq : Byte} (h : ¬ (0 < s.win.len ∧ s.win.slots[0].seq = seq)) :
    exec (.ackx seq) s = .next (s.outcome false) := by
  have hmatch : s.ackMatches seq = false := Bool.eq_false_iff.mpr ((ackMatches_iff s seq).not.mpr h)
  rw [exec, execAckx, State.ackXfer, hmatch]
  rfl

/-- Settles O45: the match is of the number in the oldest frame's first two bytes, and the pop moves the other entries
one place to the head. -/
theorem ackxRemovesOnlyTheOldest : Obligations.AckxRemovesOnlyTheOldest := by
  refine ⟨fun s seq hempty => exec_ackx_of_mismatch (by omega), ?_, builtData_bytes⟩
  rintro s seq _ x y rest hwin hbytes rfl
  rw [← seq_of_bytes hbytes]
  exact ⟨fun hne => exec_ackx_of_mismatch fun h => hne h.2.symm,
    fun heq => ⟨_, exec_ackx_of_match hwin heq.symm, rfl, rfl, rfl, rfl, rfl⟩⟩

/-- Settles O46: with room the frame goes into the slot behind the youngest entry. -/
theorem schedackQueuesTheAckFrame : Obligations.SchedackQueuesTheAckFrame := by
  intro s seq
  refine ⟨fun hlt => ?_, fun hfull => ?_⟩
  · have hroom : s.ackRoom = true := decide_eq_true hlt
    have hack : s.schedAck seq = { s with ackQ := s.ackQ.push ⟨s.ackQ.len, hlt⟩ (builtAck seq) } := dif_pos hlt
    refine ⟨_, rfl, ?_, ?_, fun j hj => ?_, fun j hj => ?_⟩
    all_goals rw [hack]
    · rw [hroom]
      rfl
    · rfl
    · exact (push_slot s.ackQ _ j _).trans (if_neg fun h => hj (congrArg Fin.val h).symm)
    · exact (push_slot s.ackQ _ j _).trans (if_pos (Fin.ext hj.symm))
  · have hroom : s.ackRoom = false := decide_eq_false (Nat.not_lt.mpr hfull)
    have hack : s.schedAck seq = s := dif_neg (Nat.not_lt.mpr hfull)
    rw [exec, execSchedack, hack, hroom]
    rfl

/-! ### `SRESET` and `RESYNC` (R128, R142) -/

/-- A reset of the scheduler flushes every buffer of both queues. -/
theorem schedReset_slots (s : State) (j : Fin 3) : s.schedReset.ackQ.slots[j] = CodecBuf.empty ∧
    s.schedReset.win.slots[j] = { s.win.slots[j] with frame := CodecBuf.empty } := by
  simp

/-- Settles O47: `RESYNC` resets the scheduler and writes neither queue again. -/
theorem sresetAndResyncResults : Obligations.SresetAndResyncResults := by
  intro s
  exact ⟨⟨_, rfl, rfl, rfl, rfl, schedReset_slots s⟩, ⟨_, rfl, rfl, rfl, rfl, schedReset_slots s⟩⟩

/-! ### New frames acknowledged at once (R131) -/

/-- A new frame, and the acknowledgement of its number: the window is empty again and the next number is one higher. -/
theorem getnext_ackx {s : State} {id : Nat} {c : Channel} (now : Time) (hack : s.ackQ.len = 0) (hwin : s.win.len = 0)
    (hfirst : s.firstEligible = some (id, c)) :
    ∃ t u, exec (.getnext now) s = .next t ∧
      t.answers = s.answers ++
        [⟨.ok, .frame ⟨.data, (builtData s.nextSeq (BitVec.ofNat 8 id) (c.q.take 256)).complete⟩⟩] ∧
      exec (.ackx s.nextSeq) t = .next u ∧ u.answers = t.answers ++ [⟨.ok, .bool true⟩] ∧
      u.win.len = 0 ∧ u.ackQ.len = 0 ∧ u.nextSeq = s.nextSeq + 1 ∧
      u.chan = (s.setChannel id (some { c with q := c.q.drop 256 })).chan := by
  have hfree : s.win.len < 3 := by omega
  have hhead : ∀ w, (s.win.push ⟨s.win.len, hfree⟩ w).slots[0] = w := fun w =>
    (push_slot s.win _ 0 w).trans (if_pos (Fin.ext hwin))
  refine ⟨_, _, exec_getnext_eq (getNext_of_ready hack (by omega) hfirst hfree), rfl,
    exec_ackx_of_match (Nat.succ_pos _) ?_, rfl, hwin, hack, rfl, rfl⟩
  exact (congrArg WinEntry.seq (hhead _)).trans (seq_builtData ..)

/-- The message of a data frame that fits. -/
theorem builtData_message_encodes (q ch : Byte) {p : List Byte} (hle : p.length ≤ maxPayload) :
    (CodecBuf.empty.encPushAll .data (q :: ch :: p)).Encodes .data (q :: ch :: p) ∧ (q :: ch :: p).length + 4 < 308 := by
  have hlen : (q :: ch :: p).length + 4 < 308 := by
    rw [maxPayload] at hle
    simp only [List.length_cons]
    omega
  exact ⟨CodecBuf.encodes_of_length_le .data (show (q :: ch :: p).length ≤ 308 by omega), hlen⟩

theorem decoded_builtData_zero (q ch : Byte) {p : List Byte} (hle : p.length ≤ maxPayload) :
    (decoded .data (builtData q ch p).complete.dropLast).get 0 = q := by
  obtain ⟨henc, hlen⟩ := builtData_message_encodes q ch hle
  obtain ⟨-, -, hcomplete, -⟩ := henc.frame_decodes hlen
  exact get_of_complete (congrArg (·[0]?) hcomplete)

theorem complete_builtData (q ch : Byte) {p : List Byte} (hle : p.length ≤ maxPayload) :
    (builtData q ch p).complete = (builtData q ch p).bytes := by
  obtain ⟨henc, hlen⟩ := builtData_message_encodes q ch hle
  have hframe := henc.encPush32_crc (Nat.le_of_lt hlen)
  have hfits : (q :: ch :: p ++ wordBytes (crcOver 0xFFFFFFFF (q :: ch :: p))).length < Kind.data.capacity := by
    rw [List.length_append]
    exact hlen
  rw [builtData_eq, hframe.complete_encEnd hfits, hframe.encEnd_eq hfits]

theorem originalByte_builtData (q ch : Byte) {p : List Byte} (hle : p.length ≤ maxPayload) :
    originalByte .data (fun i => (builtData q ch p).complete.getD i 0) 0 = q := by
  obtain ⟨x, y, rest, hbytes, hq⟩ := builtData_bytes q ch p
  rw [originalByte_data_zero, complete_builtData q ch hle, hbytes]
  exact hq.symm

/-- What a round of R131 needs: nothing queued or in flight, and a channel with an empty queue below which none is
ready. -/
structure State.RoundReady (s : State) (id : Byte) : Prop where
  ackQ : s.ackQ.len = 0
  win : s.win.len = 0
  slot : ∃ c, s.channel id.toNat = some c ∧ c.q = []
  lower : ∀ j d, j < id.toNat → s.channel j = some d → ¬ readyToSend d

/-- The queued byte makes the channel the lowest ready one; its frame empties the queue again. -/
theorem State.RoundReady.round {s : State} {id : Byte} (h : s.RoundReady id) (b : Byte) (now : Time) :
    ∃ t, t.RoundReady id ∧ acknowledgedRound id b now s t s.nextSeq ∧ t.nextSeq = s.nextSeq + 1 := by
  obtain ⟨c, hc, hq⟩ := h.slot
  obtain ⟨u, n, hn, hsend, hu, hslot, hother⟩ := sendQueuesWhatFits s id 1 false [b] c hc rfl
  have hqueued : c.q ++ [b].take n = [b] := by rw [hn, hq]; rfl
  rw [hqueued] at hslot
  have hack : u.ackQ.len = 0 := by rw [hu]; exact h.ackQ
  have hwin : u.win.len = 0 := by rw [hu]; exact h.win
  have hseq : u.nextSeq = s.nextSeq := by rw [hu]
  have hfirst := firstEligible_of_lowest hslot (.inr ⟨Nat.one_pos, rfl⟩)
    fun j d hj hd => h.lower j d hj ((hother j (Nat.ne_of_lt hj)).symm.trans hd)
  obtain ⟨v, t, hnext, hframe, hackx, haccepted, hwin, hack, hnextSeq, hchan⟩ := getnext_ackx now hack hwin hfirst
  rw [hseq] at hframe hackx hnextSeq
  have hdrained := (channel_congr _ t hchan id.toNat).trans
    (channel_setChannel_same _ _ _ (lt_of_channel_some s id.toNat c hc))
  refine ⟨t, ⟨hack, hwin, ⟨_, hdrained, rfl⟩, fun j d hj hd => ?_⟩,
    ⟨u, v, _, hsend, hnext, hframe, ?_, hackx, haccepted⟩, hnextSeq⟩
  · rw [channel_congr _ t hchan, channel_setChannel_ne _ _ _ _ (Nat.ne_of_gt hj), hother j (Nat.ne_of_lt hj)] at hd
    exact h.lower j d hj hd
  · exact originalByte_builtData _ _ (show 1 ≤ 256 by decide)

/-- A relation that can be stepped from every state of an invariant, and keeps it, has an infinite run. -/
theorem exists_run {α : Type} {P : α → Prop} {R : Nat → α → α → Prop} (h : ∀ k s, P s → ∃ t, P t ∧ R k s t)
    {s : α} (hs : P s) : ∃ st : Nat → α, st 0 = s ∧ ∀ k, R k (st k) (st (k + 1)) := by
  have : Nonempty α := ⟨s⟩
  choose! next hkeeps hstep using h
  have hinv (k : Nat) : P (Nat.rec s next k) := by
    induction k with
    | zero => exact hs
    | succ k ih => exact hkeeps k _ ih
  exact ⟨fun k => Nat.rec s next k, rfl, fun k => hstep k _ (hinv k)⟩

/-- Settles O48: each round takes the next number, and 256 rounds bring the first again. -/
theorem acknowledgedFrameAdvancesTheNumber : Obligations.AcknowledgedFrameAdvancesTheNumber := by
  constructor
  · intro s now id c hack hwin hc hready
    cases hfirst : s.firstEligible with
    | none => exact absurd hready ((firstEligible_eq_none_iff s).mp hfirst id c hc)
    | some p =>
      obtain ⟨t, u, hnext, hframe, hackx, haccepted, hwin, hack, hseq, -⟩ := getnext_ackx now hack hwin hfirst
      refine ⟨t, u, _, hnext, hframe, decoded_builtData_zero _ _ (List.length_take_le _ _), hackx, haccepted, hwin,
        hack, ?_⟩
      rw [hseq, BitVec.toNat_add]
      rfl
  · intro s id c b now hack hwin hc hq hlower
    obtain ⟨st, hstart, hround⟩ := exists_run (fun k (u : State) (hu : u.RoundReady id) => hu.round (b k) (now k))
      ⟨hack, hwin, ⟨c, hc, hq⟩, hlower⟩
    have hseq (k : Nat) : (st k).nextSeq = s.nextSeq + BitVec.ofNat 8 k := by
      induction k with
      | zero => rw [hstart]; exact (BitVec.add_zero _).symm
      | succ k ih => rw [(hround k).2, ih, BitVec.add_assoc, BitVec.ofNat_add]; rfl
    have hnumbered (k : Nat) :
        acknowledgedRound id (b k) (now k) (st k) (st (k + 1)) (s.nextSeq + BitVec.ofNat 8 k) := hseq k ▸ (hround k).1
    exact ⟨st, fun k => s.nextSeq + BitVec.ofNat 8 k, hstart, hnumbered, fun _ => rfl,
      congrArg (s.nextSeq + ·) (show BitVec.ofNat 8 256 = BitVec.ofNat 8 0 by decide),
      congrArg (s.nextSeq + ·) (show BitVec.ofNat 8 257 = BitVec.ofNat 8 1 by decide)⟩

end Sys2Proof.Machine

/-! ## OPEN and CLOSE (R135, R136) -/

namespace Sys2Proof.Machine

theorem occupied_iff (s : State) (id : Nat) : s.occupied id = true ↔ s.channel id ≠ none :=
  Option.isSome_iff_ne_none

/-- Settles O32: `OPEN` tests what the statement distinguishes, and writes its own slot. -/
theorem openRegistersAFreshChannel : Obligations.OpenRegistersAFreshChannel := by
  intro id s
  refine ⟨fun hbad => ?_, fun hid hfree => ?_⟩
  · rw [← occupied_iff] at hbad
    rw [exec, execOpen, if_pos hbad]
    rfl
  · have hgood : ¬ (7 < id.toNat ∨ s.occupied id.toNat = true) := by
      rw [occupied_iff, hfree]
      simpa using hid
    refine ⟨_, by rw [exec, execOpen, if_neg hgood], rfl, ?_, fun j hj => ?_⟩
    · exact channel_setChannel_same s _ _ (Nat.lt_succ_of_le hid)
    · exact channel_setChannel_ne s _ j _ hj.symm

/-- Settles O33: the slot is written only where the common precondition finds it open. -/
theorem closeDestroysTheChannel : Obligations.CloseDestroysTheChannel := by
  refine fun s => ⟨rfl, fun id => ⟨fun hclosed => ?_, fun hopen => ?_⟩⟩
  · exact congrArg Host.Outcome.next (onChannel_of_closed hclosed _)
  · obtain ⟨c, hc⟩ := Option.ne_none_iff_exists'.mp hopen
    exact ⟨_, congrArg Host.Outcome.next (onChannel_of_open hc _), rfl, channel_answer_setChannel hc _ _ _⟩

end Sys2Proof.Machine

/-! ## Who delivers (R148, R166, R167) -/

namespace Sys2Proof.Machine

/-- From `s` to `t` nothing has been delivered, and no list of nested commands taken. -/
structure NoDelivery (s t : State) : Prop where
  delivered : t.delivered = s.delivered
  nested : t.nested = s.nested

theorem NoDelivery.refl (s : State) : NoDelivery s s := ⟨rfl, rfl⟩

theorem onChannel_noDelivery {s : State} (id : Byte) {f : Channel → State} (h : ∀ c, NoDelivery s (f c)) :
    NoDelivery s (s.onChannel id f) := by
  unfold State.onChannel
  split
  · exact ⟨rfl, rfl⟩
  · exact h _

/-- The burst answers nothing and delivers nothing. -/
theorem syncBurstStep_frame (s : State) : s.syncBurstStep =
    { s.syncBurstStep with answers := s.answers, nested := s.nested, delivered := s.delivered } := by
  unfold State.syncBurstStep
  dsimp only
  split
  · rfl
  · split
    · rfl
    · rfl

theorem syncBurstStep_noDelivery (s : State) : NoDelivery s s.syncBurstStep := by
  rw [syncBurstStep_frame]
  exact ⟨rfl, rfl⟩

theorem getNext_noDelivery (s : State) (now : Time) : NoDelivery s (s.getNext now).2 := by
  rw [getNext_frame]
  exact ⟨rfl, rfl⟩

theorem scheduleFrame_noDelivery (s : State) : NoDelivery s s.scheduleFrame := by
  obtain ⟨hdelivered, hnested⟩ := getNext_noDelivery { s with link := s.link.askNow.2 } s.link.askNow.1
  unfold State.scheduleFrame
  dsimp only
  split
  · exact ⟨hdelivered, hnested⟩
  · exact ⟨hdelivered, hnested⟩

theorem txStep_noDelivery (s : State) : NoDelivery s s.txStep := by
  obtain ⟨hdelivered, hnested⟩ := scheduleFrame_noDelivery { s with link := s.link.askLevel.2 }
  unfold State.txStep
  dsimp only
  split
  · exact ⟨hdelivered, hnested⟩
  · exact ⟨rfl, rfl⟩

theorem NoDelivery.answerFrame {s t : State} (h : NoDelivery s t) (f : Option Frame) :
    NoDelivery s (t.answerFrame f) := by
  cases f with
  | none => exact ⟨h.delivered, h.nested⟩
  | some f => exact ⟨h.delivered, h.nested⟩

theorem exec_noDelivery (i : Instr) (s t : State) (hi : mayDeliver i = false) (h : exec i s = .next t) :
    NoDelivery s t := by
  cases i with
  | wEod | rxbyte | rxdrain | task => cases hi
  | wData | wAck | wGarbage | getnack | encAPush | encAPush32 | encAEnd | encAFlush | decAPush | decAFlush | encDPush
  | encDPush32 | encDEnd | encDFlush | decDPush | decDFlush | isSync | isEoa | isEod | isAck | isData | crc32Step
  | sreset | resync => cases h; exact ⟨rfl, rfl⟩
  | openSlot | decodeA | decodeD =>
    cases h
    split
    · exact ⟨rfl, rfl⟩
    · exact ⟨rfl, rfl⟩
  | send | setrx | txsize | txspace | txflush => cases h; exact onChannel_noDelivery _ fun _ => ⟨rfl, rfl⟩
  | closeSlot id =>
    cases h
    cases id with
    | none => exact ⟨rfl, rfl⟩
    | some id => exact onChannel_noDelivery _ fun _ => ⟨rfl, rfl⟩
  | wSync => cases h; rw [rxSync_frame]; exact ⟨rfl, rfl⟩
  | wEoa => cases h; rw [rxEndOfAck_frame]; exact ⟨rfl, rfl⟩
  | ackx seq => cases h; rw [ackXfer_frame]; exact ⟨rfl, rfl⟩
  | schedack seq => cases h; rw [schedAck_frame]; exact ⟨rfl, rfl⟩
  | getnext now => cases h; exact (getNext_noDelivery s now).answerFrame _
  | syncburst =>
    cases h
    obtain ⟨hdelivered, hnested⟩ := syncBurstStep_noDelivery s
    exact ⟨hdelivered, hnested⟩
  | txstep =>
    cases h
    obtain ⟨hdelivered, hnested⟩ := txStep_noDelivery s
    exact ⟨hdelivered, hnested⟩

/-- Settles O14: neither list is among what an instruction spoken of may change. -/
theorem onlyInboundDataDelivers : Obligations.OnlyInboundDataDelivers := by
  intro i s t hi h
  obtain ⟨hdelivered, hnested⟩ := exec_noDelivery i s t hi h
  exact ⟨hdelivered, hnested⟩

end Sys2Proof.Machine

/-! ## Inbound bytes, one equation per class (R140 to R147) -/

namespace Sys2Proof.Machine

/-! ### The classes of the classifiers are those of the wire instructions (R60) -/

theorem isDataByte_iff (b : Byte) : isDataByte b = true ↔ b.extractLsb' 7 1 = 1#1 := by
  revert b
  decide

theorem isAckByte_iff (b : Byte) : isAckByte b = true ↔ b.extractLsb' 6 2 = 1#2 := by
  revert b
  decide

theorem dataWireByte_extract {b : Byte} (h : b.extractLsb' 7 1 = 1#1) : dataWireByte (b.extractLsb' 0 7) = b := by
  revert b
  decide

theorem ackWireByte_extract {b : Byte} (h : b.extractLsb' 6 2 = 1#2) : ackWireByte (b.extractLsb' 0 6) = b := by
  revert b
  decide

theorem dataWireByte_eq_or (d : BitVec 7) : dataWireByte d = 0x80#8 ||| d.setWidth 8 := by
  revert d
  decide

theorem ackWireByte_eq_or (a : BitVec 6) : ackWireByte a = 0x40#8 ||| a.setWidth 8 := by
  revert a
  decide

theorem not_sync_ack_eoa_of_data {b : Byte} (h : isDataByte b = true) :
    isSyncByte b = false ∧ isAckByte b = false ∧ isEoaByte b = false := by
  revert b
  decide

theorem not_sync_of_ack {b : Byte} (h : isAckByte b = true) : isSyncByte b = false := by
  revert b
  decide

theorem rxByte_of_data (s : State) {b : Byte} (h : isDataByte b = true) : s.rxByte b = s.endSyncRun.rxDataByte b := by
  obtain ⟨hsync, hack, heoa⟩ := not_sync_ack_eoa_of_data h
  simp [State.rxByte, hsync, hack, heoa, h]

theorem rxByte_of_ack (s : State) {b : Byte} (h : isAckByte b = true) : s.rxByte b = s.endSyncRun.rxAckByte b := by
  simp [State.rxByte, not_sync_of_ack h, h]

theorem rxByte_of_garbage (s : State) {b : Byte} (hsync : b ≠ 0x2C#8) (hack : ¬ isAckByte b = true)
    (heoa : b ≠ 0x01#8) (hdata : ¬ isDataByte b = true) (heod : b ≠ 0x02#8) : s.rxByte b = s.endSyncRun := by
  simp [State.rxByte, isSyncByte, isEoaByte, isEodByte, hsync, hack, heoa, hdata, heod]

/-- The wire instruction that a byte is does what the classifier does with the byte (log 11). -/
theorem exec_decodeWire (b : Byte) (s : State) : exec (decodeWire b) s = .next (s.rxByte b) := by
  unfold decodeWire
  split
  · next hdata => rw [rxByte_of_data s ((isDataByte_iff b).mpr hdata), exec, execWData, dataWireByte_extract hdata]
  · next hdata =>
    split
    · next hack => rw [rxByte_of_ack s ((isAckByte_iff b).mpr hack), exec, execWAck, ackWireByte_extract hack]
    · next hack =>
      split
      · next hsync => subst hsync; rfl
      · next hsync =>
        split
        · next heoa => subst heoa; rfl
        · next heoa =>
          split
          · next heod => subst heod; rfl
          · next heod =>
            rw [← isDataByte_iff] at hdata
            rw [← isAckByte_iff] at hack
            rw [rxByte_of_garbage s hsync hack heoa hdata heod]
            rfl

/-- Settles O49: the wire instruction and `RXBYTE` both do what the classifier does with the byte. -/
theorem rxbyteRunsTheWireInstruction : Obligations.RxbyteRunsTheWireInstruction :=
  fun b s => ⟨s.rxByte b, exec_decodeWire b s, rfl⟩

/-! ### SYNC, payload and garbage bytes (R141, R143, R146, R147) -/

/-- Settles O50: the test of `SYNC_RX_DETECT` counts the byte itself. -/
theorem thirdSyncResynchronises : Obligations.ThirdSyncResynchronises := by
  refine fun s => ⟨fun hfew => ?_, fun hthird => ⟨s.doResync.done, rfl, ?_⟩⟩
  · rw [exec, execWSync, State.rxSync, if_neg (by rw [syncRxDetect]; omega)]
  · rw [exec, execWSync, State.rxSync, if_pos (by rw [syncRxDetect]; omega)]
    rfl

/-- Settles O51: the byte that the wire instruction stands for, pushed as the decoder's instruction pushes it. -/
theorem payloadAndGarbageBytes : Obligations.PayloadAndGarbageBytes := by
  refine fun s => ⟨fun a => ⟨_, rfl, ?_⟩, fun d => ⟨_, rfl, ?_⟩, fun g => rfl⟩
  · rw [← ackWireByte_eq_or]
    rfl
  · rw [← dataWireByte_eq_or]
    rfl

/-! ### The end of an ACK frame (R144) -/

theorem ackFrameValid_iff (D : CodecBuf) : ackFrameValid D = true ↔ D.crc = 0 ∧ D.count = 5 := by
  simp [ackFrameValid, ackFrameLen]

/-- `ACKX` reads nothing of the run of SYNC bytes. -/
theorem endSyncRun_ackXfer (s : State) (seq : Byte) : s.endSyncRun.ackXfer seq = (s.ackXfer seq).endSyncRun := by
  have hmatch : s.endSyncRun.ackMatches seq = s.ackMatches seq := rfl
  unfold State.ackXfer
  rw [hmatch]
  split
  · rfl
  · rfl

theorem ackXfer_answers (s : State) (seq : Byte) : (s.ackXfer seq).answers = s.answers := by
  rw [ackXfer_frame]

/-- Settles O52: the test of the frame guards the acknowledgement, and nothing guards the flush. -/
theorem endOfAckAcknowledges : Obligations.EndOfAckAcknowledges := by
  refine fun s => ⟨fun hvalid => ⟨_, rfl, ?_⟩, fun hbad => ?_⟩
  · have hframe : ackFrameValid s.endSyncRun.rxAck = true := (ackFrameValid_iff _).mpr hvalid
    rw [exec, execWEoa, State.rxEndOfAck, if_pos hframe, endSyncRun_ackXfer, ← ackXfer_answers s (s.rxAck.get 0)]
    rfl
  · have hframe : ¬ ackFrameValid s.endSyncRun.rxAck = true := by
      rw [ackFrameValid_iff]
      exact fun hvalid => hbad.elim (fun h => h hvalid.1) fun h => h hvalid.2
    rw [exec, execWEoa, State.rxEndOfAck, if_neg hframe]
    rfl

/-! ### The end of a data frame (R145, R148) -/

theorem schedAck_ackQ (s : State) (seq : Byte) : (s.schedAck seq).ackQ =
    if h : s.ackQ.len < 3 then s.ackQ.push ⟨s.ackQ.len, h⟩ (builtAck seq) else s.ackQ := by
  unfold State.schedAck
  split
  · rfl
  · rfl

theorem rxEndOfData_of_invalid {s : State} (h : s.rxData.crc ≠ 0 ∨ s.rxData.count ≤ 6) :
    s.rxEndOfData = { s with rxData := CodecBuf.empty } := by
  have hframe : ¬ dataFrameValid s.rxData = true := by
    rw [dataFrameValid_iff]
    rintro ⟨hcrc, hcount⟩
    exact h.elim (fun hne => hne hcrc) fun hle => Nat.not_lt.mpr hle hcount
  rw [State.rxEndOfData, if_neg hframe]
  rfl

/-- Out of sequence the frame is acknowledged all the same (D22). -/
theorem rxEndOfData_of_outOfSequence {s : State} (hvalid : dataFrameValid s.rxData = true)
    (hseq : s.rxData.get 0 ≠ s.expectedSeq) :
    s.rxEndOfData = { s with rxData := CodecBuf.empty, ackQ := (s.schedAck (s.rxData.get 0)).ackQ } := by
  have hnot : s.rxData.get 0 ≠ (s.schedAck (s.rxData.get 0)).expectedSeq := by rwa [schedAck_expectedSeq]
  rw [State.rxEndOfData, if_pos hvalid, State.acceptData, if_neg hnot, schedAck_frame]
  rfl

theorem receiver_eq_none {s : State} {id : Nat}
    (h : 7 < id ∨ s.channel id = none ∨ ∃ c, s.channel id = some c ∧ c.rx = none) : s.receiver id = none := by
  rcases h with hid | hclosed | ⟨c, hc, hrx⟩
  · simp [State.receiver, channel_none_of_ge s id hid]
  · simp [State.receiver, hclosed]
  · simp [State.receiver, hc, hrx]

theorem receiver_schedAck (s : State) (seq : Byte) (id : Nat) : (s.schedAck seq).receiver id = s.receiver id := by
  rw [schedAck_frame]
  rfl

theorem deliverPayload_of_noReceiver {s : State} (h : s.receiver (s.rxData.get 1).toNat = none) :
    s.deliverPayload = s := by
  rw [State.deliverPayload, h]

/-- Without a receiver the payload is dropped, and the expected number advances (D21). -/
theorem rxEndOfData_of_noReceiver {s : State} (hvalid : dataFrameValid s.rxData = true)
    (hseq : s.rxData.get 0 = s.expectedSeq) (hrx : s.receiver (s.rxData.get 1).toNat = none) :
    s.rxEndOfData = { s with rxData := CodecBuf.empty, ackQ := (s.schedAck s.expectedSeq).ackQ,
                             expectedSeq := s.expectedSeq + 1 } := by
  have hdropped : (s.schedAck s.expectedSeq).deliverPayload = s.schedAck s.expectedSeq :=
    deliverPayload_of_noReceiver (by rw [receiver_schedAck, schedAck_rxData, hrx])
  rw [rxEndOfData_of_inSequence hvalid hseq, State.acceptInSequence, hdropped, schedAck_frame]

theorem deliverReturn_nested (s : State) : s.deliverReturn.nested = s.nested.tail := by
  unfold State.deliverReturn
  split
  · next h => rw [h]; rfl
  · next h => rw [nestedAll_frame, h]; rfl

theorem deliverReturn_of_nothingNested {s : State} (h : s.nested = []) : s.deliverReturn = s := by
  unfold State.deliverReturn
  rw [h]

/-- A delivery appends the event and takes the first list of nested commands (log 10), which alone write channels and
answers. -/
theorem deliver_effect (s : State) (ch : Byte) (rx : Receiver) (p : List Byte) :
    ∃ chan answers, s.deliver ch rx p =
        { s with chan := chan, answers := answers, nested := s.nested.tail,
                 delivered := s.delivered ++ [⟨ch, rx, p⟩] } ∧
      (s.nested = [] → chan = s.chan ∧ answers = s.answers) := by
  refine ⟨(s.deliver ch rx p).chan, (s.deliver ch rx p).answers, ?_, fun hnone => ?_⟩
  · have hnested : (s.deliver ch rx p).nested = s.nested.tail := deliverReturn_nested _
    rw [← hnested]
    exact deliver_frame s ch rx p
  · have hentry : s.deliver ch rx p = s.deliverEntry ch rx p := deliverReturn_of_nothingNested hnone
    rw [hentry]
    exact ⟨rfl, rfl⟩

/-- With a receiver the payload is delivered when the ACK is queued. -/
theorem rxEndOfData_of_receiver {s : State} {rx : Receiver} (hvalid : dataFrameValid s.rxData = true)
    (hseq : s.rxData.get 0 = s.expectedSeq) (hrx : s.receiver (s.rxData.get 1).toNat = some rx) :
    ∃ chan answers, s.rxEndOfData =
        { s with rxData := CodecBuf.empty, ackQ := (s.schedAck s.expectedSeq).ackQ, expectedSeq := s.expectedSeq + 1,
                 chan := chan, answers := answers, nested := s.nested.tail,
                 delivered := s.delivered ++ [⟨s.rxData.get 1, rx, s.rxPayload⟩] } ∧
      (s.nested = [] → chan = s.chan ∧ answers = s.answers) := by
  have hreceiver : (s.schedAck s.expectedSeq).receiver ((s.schedAck s.expectedSeq).rxData.get 1).toNat = some rx := by
    rw [receiver_schedAck, schedAck_rxData, hrx]
  rw [rxEndOfData_of_inSequence hvalid hseq, State.acceptInSequence, deliverPayload_of_receiver hreceiver]
  obtain ⟨chan, answers, hdeliver, hnothing⟩ := deliver_effect (s.schedAck s.expectedSeq)
    ((s.schedAck s.expectedSeq).rxData.get 1) rx (s.schedAck s.expectedSeq).rxPayload
  rw [hdeliver]
  rw [schedAck_frame] at hnothing ⊢
  exact ⟨chan, answers, rfl, hnothing⟩

theorem rxPayload_getElem? (s : State) {j : Nat} (h : j < s.rxData.count - 6) :
    s.rxPayload[j]? = s.rxData.bytes[j + 2]? := by
  rw [State.rxPayload, List.getElem?_take_of_lt h, List.getElem?_drop, Nat.add_comm]

theorem length_rxPayload_le (s : State) : s.rxPayload.length ≤ s.rxData.count - 6 := List.length_take_le _ _

/-- Settles O53: one equation for each way a data frame can end. -/
theorem endOfDataAcknowledgesAndDelivers : Obligations.EndOfDataAcknowledgesAndDelivers := by
  rintro s _ _ rfl rfl
  refine ⟨fun hbad => congrArg Host.Outcome.next (rxEndOfData_of_invalid (s := s.endSyncRun) hbad),
    fun hcrc hcount => ?_⟩
  have hvalid : dataFrameValid s.endSyncRun.rxData = true := (dataFrameValid_iff _).mpr ⟨hcrc, hcount⟩
  have hack (seq : Byte) : (s.endSyncRun.schedAck seq).ackQ = (s.schedAck seq).ackQ := by
    rw [schedAck_ackQ, schedAck_ackQ]
    rfl
  refine ⟨_, rfl, fun hne => ?_, fun heq hnone => ?_, fun c rx heq hc hrx => ?_⟩
  · rw [exec, execWEod, rxEndOfData_of_outOfSequence hvalid hne, hack]
    rfl
  · rw [exec, execWEod, rxEndOfData_of_noReceiver hvalid heq (receiver_eq_none hnone), hack, heq]
    rfl
  · obtain ⟨chan, answers, hend, hnothing⟩ := rxEndOfData_of_receiver hvalid heq (receiver_of_channel hc hrx)
    refine ⟨_, s.rxPayload, rfl, ?_, fun j hj => rxPayload_getElem? s hj, length_rxPayload_le s, ?_, fun h => ?_⟩
    all_goals rw [hend]
    · rfl
    · rw [hack, heq]
      rfl
    · exact hnothing h

end Sys2Proof.Machine

/-! ## Duplicate suppression (R151) -/

namespace Sys2Proof.Machine

/-- The decode buffer holds the whole data frame of a number, a channel and a payload, its CRC included (R67, R145). -/
structure CodecBuf.HoldsFrame (D : CodecBuf) (seq ch : Byte) (p : List Byte) : Prop where
  crc_eq : D.crc = 0
  count_eq : D.count = p.length + 6
  complete_eq : ∃ crc : Word, D.complete = seq :: ch :: p ++ wordBytes crc

section holdsFrame

variable {D : CodecBuf} {seq ch : Byte} {p : List Byte}

theorem CodecBuf.HoldsFrame.valid (h : D.HoldsFrame seq ch p) (hp : 1 ≤ p.length) : dataFrameValid D = true := by
  rw [dataFrameValid_iff, h.count_eq]
  exact ⟨h.crc_eq, by omega⟩

theorem CodecBuf.HoldsFrame.get_zero (h : D.HoldsFrame seq ch p) : D.get 0 = seq := by
  obtain ⟨crc, hcomplete⟩ := h.complete_eq
  exact get_of_complete (hcomplete ▸ rfl)

theorem CodecBuf.HoldsFrame.get_one (h : D.HoldsFrame seq ch p) : D.get 1 = ch := by
  obtain ⟨crc, hcomplete⟩ := h.complete_eq
  exact get_of_complete (hcomplete ▸ rfl)

/-- Between the header and the CRC stands the payload. -/
theorem CodecBuf.HoldsFrame.rxPayload {s : State} (h : s.rxData.HoldsFrame seq ch p) : s.rxPayload = p := by
  obtain ⟨crc, hcomplete⟩ := h.complete_eq
  have hpayload : (s.rxData.complete.drop 2).take p.length = p := by
    rw [hcomplete]
    exact List.take_left
  rw [CodecBuf.complete, List.drop_take, List.take_take, h.count_eq, Nat.min_eq_left (by omega)] at hpayload
  rw [State.rxPayload, h.count_eq, Nat.add_sub_cancel, hpayload]

end holdsFrame

/-- A data frame is data bytes and the terminator; the data bytes, fed to a flushed decoder, leave the whole frame. -/
theorem builtData_decodes (seq ch : Byte) {p : List Byte} (hle : p.length ≤ maxPayload) :
    ∃ bs, (∀ b ∈ bs, isDataByte b = true) ∧ (builtData seq ch p).complete = bs ++ [0x02#8] ∧
      (decoded .data bs).HoldsFrame seq ch p := by
  obtain ⟨henc, hlen⟩ := builtData_message_encodes seq ch hle
  have hframe := henc.encPush32_crc (Nat.le_of_lt hlen)
  have hfits : (seq :: ch :: p ++ wordBytes (crcOver 0xFFFFFFFF (seq :: ch :: p))).length < Kind.data.capacity := by
    rw [List.length_append]
    exact hlen
  obtain ⟨hcount, hcomplete, hcrc⟩ := hframe.decoded_bytes
  refine ⟨_, ?_, hframe.complete_encEnd hfits, hcrc.trans (crcResidueIsZero.2 _), hcount.trans ?_, _, hcomplete⟩
  · exact encPushAll_isPayload _ henc.ok (empty_encPushAll_isPayload .data _)
  · rw [List.length_append]
    rfl

/-- Data bytes go to `rxData` one by one, and the terminator ends the frame (R145, R146). -/
theorem afterBytes_dataFrame {bs : List Byte} (hdata : ∀ b ∈ bs, isDataByte b = true) (s : State) :
    s.afterBytes (bs ++ [0x02#8]) =
      { s with syncCount := 0, rxData := bs.foldl (CodecBuf.decPush .data) s.rxData }.rxEndOfData := by
  induction bs generalizing s with
  | nil => rfl
  | cons b bs ih =>
    obtain ⟨hb, hbs⟩ := List.forall_mem_cons.mp hdata
    have hrest := ih hbs (s.rxByte b)
    rw [rxByte_of_data s hb] at hrest
    rw [List.cons_append, State.afterBytes, List.foldl_cons, rxByte_of_data s hb]
    exact hrest

/-- The bytes of a built data frame, arriving at a flushed decoder, end as that frame. -/
theorem afterBytes_builtData {s : State} (hflushed : s.rxData = CodecBuf.empty) (seq ch : Byte) {p : List Byte}
    (hle : p.length ≤ 256) : ∃ D : CodecBuf, D.HoldsFrame seq ch p ∧
      s.afterBytes (builtData seq ch p).complete = { s with syncCount := 0, rxData := D }.rxEndOfData := by
  obtain ⟨bs, hdata, hcomplete, hholds⟩ := builtData_decodes seq ch hle
  refine ⟨_, hholds, ?_⟩
  rw [hcomplete, afterBytes_dataFrame hdata, hflushed]
  rfl

/-- A frame in sequence for a receiver is acknowledged and delivered. -/
theorem afterBytes_inSequence {s : State} {ch : Byte} {p : List Byte} {c : Channel} {rx : Receiver}
    (hflushed : s.rxData = CodecBuf.empty) (hpos : 1 ≤ p.length) (hle : p.length ≤ 256)
    (hc : s.channel ch.toNat = some c) (hrx : c.rx = some rx) :
    ∃ t, s.afterBytes (builtData s.expectedSeq ch p).complete = t ∧ t.rxData = CodecBuf.empty ∧
      t.delivered = s.delivered ++ [⟨ch, rx, p⟩] ∧ t.expectedSeq = s.expectedSeq + 1 ∧
      t.ackQ = (s.schedAck s.expectedSeq).ackQ := by
  obtain ⟨D, hD, harrive⟩ := afterBytes_builtData hflushed s.expectedSeq ch hle
  generalize hs : ({ s with syncCount := 0, rxData := D } : State) = s' at harrive
  have hframe : s'.rxData = D := hs ▸ rfl
  rw [← hframe] at hD
  have hreceiver : s'.receiver (s'.rxData.get 1).toNat = some rx := by
    rw [hD.get_one, ← hs]
    exact receiver_of_channel hc hrx
  have hseq : s'.rxData.get 0 = s'.expectedSeq := by
    rw [hD.get_zero, ← hs]
  obtain ⟨chan, answers, hend, -⟩ := rxEndOfData_of_receiver (hD.valid hpos) hseq hreceiver
  rw [hD.get_one, hD.rxPayload] at hend
  refine ⟨_, harrive.trans hend, rfl, ?_, ?_, ?_⟩
  · rw [← hs]
  · rw [← hs]
  · rw [schedAck_ackQ, schedAck_ackQ, ← hs]

/-- A frame out of sequence is acknowledged only. -/
theorem afterBytes_outOfSequence {s : State} {seq ch : Byte} {p : List Byte} (hflushed : s.rxData = CodecBuf.empty)
    (hpos : 1 ≤ p.length) (hle : p.length ≤ 256) (hseq : seq ≠ s.expectedSeq) :
    s.afterBytes (builtData seq ch p).complete =
      { s with syncCount := 0, rxData := CodecBuf.empty, ackQ := (s.schedAck seq).ackQ } := by
  obtain ⟨D, hD, harrive⟩ := afterBytes_builtData hflushed seq ch hle
  have hne : D.get 0 ≠ s.expectedSeq := hD.get_zero.symm ▸ hseq
  rw [harrive, rxEndOfData_of_outOfSequence (hD.valid hpos) hne, schedAck_ackQ, schedAck_ackQ, hD.get_zero]

/-- The queue behind an accepted `SCHEDACK` (R127). -/
theorem schedAck_of_room {s : State} (seq : Byte) (h : s.ackQ.len < 3) :
    (s.schedAck seq).ackQ.len = s.ackQ.len + 1 ∧ ∀ j : Fin 3, (s.schedAck seq).ackQ.slots[j] =
      if j.val = s.ackQ.len then builtAck seq else s.ackQ.slots[j] := by
  rw [schedAck_ackQ, dif_pos h]
  refine ⟨rfl, fun j => ?_⟩
  rw [push_slot]
  simp only [Fin.ext_iff, eq_comm]

/-- Settles O55: the first copy advances the expected number, so the second is out of sequence. -/
theorem duplicateFrameDeliversOnce : Obligations.DuplicateFrameDeliversOnce := by
  intro s t u ch p c rx hflushed hroom hpos hle hc hrx ht hu
  obtain ⟨_, hfirst, hempty, hdelivered, hexpected, hack⟩ := afterBytes_inSequence hflushed hpos hle hc hrx
  rw [← hfirst, ← ht] at hempty hdelivered hexpected hack
  have hnext : s.expectedSeq ≠ t.expectedSeq := by rw [hexpected]; bv_omega
  rw [afterBytes_outOfSequence hempty hpos hle hnext] at hu
  obtain ⟨hlen, hslot⟩ := schedAck_of_room s.expectedSeq (show s.ackQ.len < 3 by omega)
  rw [← hack] at hlen hslot
  obtain ⟨hlen', hslot'⟩ := schedAck_of_room s.expectedSeq (show t.ackQ.len < 3 by omega)
  subst hu
  refine ⟨hdelivered, rfl, hexpected, rfl, by rw [hlen', hlen], fun j hj => ?_⟩
  rw [hslot', hslot, hlen]
  rcases hj with hj | hj
  · rw [if_pos hj, ite_self]
  · rw [if_pos hj]

end Sys2Proof.Machine

/-! ## The drain (R139) -/

namespace Sys2Proof.Machine

/-- The state with another transport. -/
def State.withLink (s : State) (l : Link) : State := { s with link := l }

/-! No inbound byte looks at the transport. -/

section withLink

variable (s : State) (l : Link)

@[simp] theorem withLink_rxAck : (s.withLink l).rxAck = s.rxAck := rfl
@[simp] theorem withLink_rxData : (s.withLink l).rxData = s.rxData := rfl
@[simp] theorem withLink_expectedSeq : (s.withLink l).expectedSeq = s.expectedSeq := rfl
@[simp] theorem withLink_syncCount : (s.withLink l).syncCount = s.syncCount := rfl
@[simp] theorem withLink_link : (s.withLink l).link = l := rfl
@[simp] theorem withLink_answers : (s.withLink l).answers = s.answers := rfl

theorem foldl_nestedCmd_withLink (cmds : List (List Byte)) :
    cmds.foldl State.nestedCmd (s.withLink l) = (cmds.foldl State.nestedCmd s).withLink l := by
  have hsame : SameForNesting (s.withLink l) s := ⟨rfl, rfl, rfl⟩
  have hrun := hsame.foldl cmds
  rw [nestedAll_frame cmds (s.withLink l), hrun.chan, hrun.answers, nestedAll_frame cmds s]
  rfl

theorem deliver_withLink (ch : Byte) (rx : Receiver) (p : List Byte) :
    (s.withLink l).deliver ch rx p = (s.deliver ch rx p).withLink l := by
  have hnested : ((s.withLink l).deliverEntry ch rx p).nested = (s.deliverEntry ch rx p).nested := rfl
  unfold State.deliver State.deliverReturn
  rw [hnested]
  split
  · rfl
  · next cmds rest _ => exact foldl_nestedCmd_withLink { s.deliverEntry ch rx p with nested := rest } l cmds

theorem deliverPayload_withLink : (s.withLink l).deliverPayload = s.deliverPayload.withLink l := by
  cases hrx : s.receiver (s.rxData.get 1).toNat with
  | none => rw [deliverPayload_of_noReceiver hrx, deliverPayload_of_noReceiver (s := s.withLink l) hrx]
  | some rx =>
    rw [deliverPayload_of_receiver hrx, deliverPayload_of_receiver (s := s.withLink l) hrx]
    exact deliver_withLink s l _ rx s.rxPayload

theorem schedAck_withLink (seq : Byte) : (s.withLink l).schedAck seq = (s.schedAck seq).withLink l := by
  rw [schedAck_frame, schedAck_frame s, schedAck_ackQ, schedAck_ackQ]
  rfl

theorem acceptInSequence_withLink : (s.withLink l).acceptInSequence = s.acceptInSequence.withLink l := by
  rw [State.acceptInSequence, deliverPayload_withLink]
  rfl

theorem acceptData_withLink : (s.withLink l).acceptData = s.acceptData.withLink l := by
  unfold State.acceptData
  dsimp only
  rw [withLink_rxData, schedAck_withLink, withLink_expectedSeq]
  split
  · exact acceptInSequence_withLink _ l
  · rfl

theorem rxEndOfData_withLink : (s.withLink l).rxEndOfData = s.rxEndOfData.withLink l := by
  unfold State.rxEndOfData
  rw [acceptData_withLink, withLink_rxData]
  split
  · rfl
  · rfl

theorem ackXfer_withLink (seq : Byte) : (s.withLink l).ackXfer seq = (s.ackXfer seq).withLink l := by
  have hmatch : (s.withLink l).ackMatches seq = s.ackMatches seq := rfl
  unfold State.ackXfer
  rw [hmatch]
  split
  · rfl
  · rfl

theorem rxEndOfAck_withLink : (s.withLink l).rxEndOfAck = s.rxEndOfAck.withLink l := by
  unfold State.rxEndOfAck
  rw [withLink_rxAck, ackXfer_withLink]
  split
  · rfl
  · rfl

theorem rxSync_withLink : (s.withLink l).rxSync = s.rxSync.withLink l := by
  unfold State.rxSync
  rw [withLink_syncCount]
  split
  · rfl
  · rfl

theorem rxByte_withLink (b : Byte) : (s.withLink l).rxByte b = (s.rxByte b).withLink l := by
  unfold State.rxByte
  split
  · exact rxSync_withLink s l
  · split
    · rfl
    · split
      · exact rxEndOfAck_withLink s.endSyncRun l
      · split
        · rfl
        · split
          · exact rxEndOfData_withLink s.endSyncRun l
          · rfl

theorem afterBytes_withLink (bs : List Byte) : (s.withLink l).afterBytes bs = (s.afterBytes bs).withLink l := by
  induction bs generalizing s with
  | nil => rfl
  | cons b bs ih =>
    have hrest := ih (s.rxByte b)
    rw [← rxByte_withLink] at hrest
    exact hrest

end withLink

/-- A drain that finds nothing pending, now or behind the listed answers, ends (R190). -/
theorem drainNeverEnds_eq_false {l : Link} (h : l.rxEndless = false ∨ [] ∈ l.rx) : l.drainNeverEnds = false := by
  rw [Link.drainNeverEnds, Bool.and_eq_false_iff]
  refine h.imp id fun hmem => List.all_eq_false.mpr ⟨[], hmem, by decide⟩

theorem drainLoop_nil (s : State) : State.drainLoop [] s = s.withLink { s.link with rx := [] } := rfl

/-- The loop classifies the bytes of the calls that find some, and goes on behind them. -/
theorem drainLoop_append {chunks : List (List Byte)} (hne : ∀ bs ∈ chunks, bs ≠ []) (rest : List (List Byte))
    (s : State) : State.drainLoop (chunks ++ rest) s = State.drainLoop rest (s.afterBytes chunks.flatten) := by
  induction chunks generalizing s with
  | nil => rfl
  | cons bs chunks ih =>
    obtain ⟨hbs, hchunks⟩ := List.forall_mem_cons.mp hne
    obtain ⟨b, bs, rfl⟩ := List.exists_cons_of_ne_nil hbs
    rw [List.flatten_cons, State.afterBytes, List.foldl_append]
    exact ih hchunks _

theorem afterBytes_link (s : State) (bs : List Byte) : (s.afterBytes bs).link = s.link := by
  induction bs generalizing s with
  | nil => rfl
  | cons b bs ih =>
    have hbyte : (s.rxByte b).link = s.link := by rw [rxByte_frame]
    exact (ih (s.rxByte b)).trans hbyte

/-- Settles O56: the calls consumed are the transport's, and no byte looks at it. -/
theorem rxdrainClassifiesInArrivalOrder : Obligations.RxdrainClassifiesInArrivalOrder := by
  intro s chunks rest hne hrx
  refine ⟨_, rfl, ?_⟩
  have hends : s.link.drainNeverEnds = false := by
    refine drainNeverEnds_eq_false ?_
    rcases hrx with hrx | ⟨-, -, hend⟩
    · exact .inr (by simp [hrx])
    · exact .inl hend
  have hdrain : s.rxDrain = (s.afterBytes chunks.flatten).withLink { s.link with rx := rest } := by
    rw [← afterBytes_link s chunks.flatten, State.rxDrain]
    rcases hrx with hrx | ⟨hrx, rfl, -⟩
    · rw [hrx]
      exact drainLoop_append hne ([] :: rest) s
    · rw [hrx, ← drainLoop_nil, ← drainLoop_append hne, List.append_nil]
  rw [exec, execRxdrain, hends, hdrain, ← afterBytes_withLink]
  rfl

end Sys2Proof.Machine

/-! ## SYNCBURST (R138) -/

namespace Sys2Proof.Machine

theorem syncBurstStep_of_synchronized {s : State} (h : s.syncSent = true) : s.syncBurstStep = s := by
  rw [State.syncBurstStep, if_pos h]

/-- A burst that is not accepted whole changes only the transport (D17). -/
theorem syncBurstStep_of_refused {s : State} (h : s.syncSent = false) (hn : (s.link.transmit syncBurst).1 ≠ 5) :
    s.syncBurstStep = s.withLink (s.link.transmit syncBurst).2 := by
  rw [State.syncBurstStep, if_neg (by simp [h])]
  exact if_neg hn

theorem syncBurstStep_of_accepted {s : State} (h : s.syncSent = false) (hn : (s.link.transmit syncBurst).1 = 5) :
    s.syncBurstStep = { (s.withLink (s.link.transmit syncBurst).2).schedReset.flushDecoders with
      syncSent := true, expectedSeq := 0 } := by
  rw [State.syncBurstStep, if_neg (by simp [h])]
  exact if_pos hn

/-- Settles O57: one equation for each of the three outcomes. -/
theorem syncburstResult : Obligations.SyncburstResult := by
  refine fun s => ⟨fun hsync => ?_, fun hsync => ⟨_, _, rfl, fun hn => ?_, fun hn => ?_⟩⟩
  · rw [exec, execSyncburst, syncBurstStep_of_synchronized hsync]
    rfl
  · rw [exec, execSyncburst, syncBurstStep_of_refused hsync hn]
    rfl
  · rw [exec, execSyncburst, syncBurstStep_of_accepted hsync hn]
    exact ⟨_, rfl, rfl, rfl, rfl, schedReset_slots s⟩

end Sys2Proof.Machine

/-! ## TXSTEP (R149) -/

namespace Sys2Proof.Machine

theorem txStep_of_high {s : State} {n : Nat} {l : Link} (h : s.link.askLevel = (n, l)) (hn : 24 < n) :
    s.txStep = s.withLink l := by
  rw [State.txStep, h]
  exact if_neg (Nat.not_le.mpr hn)

/-- At or below the mark the frame that the scheduler returns at the clock's time is handed over. -/
theorem txStep_of_low {s t : State} {n : Nat} {now : Time} {l1 l2 : Link} {r : Option Frame}
    (hlevel : s.link.askLevel = (n, l1)) (hnow : l1.askNow = (now, l2)) (hn : n ≤ 24)
    (hnext : (s.withLink l2).getNext now = (r, t)) : s.txStep = r.elim t t.handOver := by
  have hlow : s.txStep = (s.withLink l1).scheduleFrame := by
    rw [State.txStep, hlevel]
    exact if_pos hn
  unfold State.withLink at hnext
  rw [hlow, State.scheduleFrame]
  simp only [State.withLink, hnow, hnext]
  cases r with
  | none => rfl
  | some f => rfl

theorem getNext_answers (s : State) (now : Time) : (s.getNext now).2.answers = s.answers := by rw [getNext_frame]

theorem getNext_link (s : State) (now : Time) : (s.getNext now).2.link = s.link := by rw [getNext_frame]

theorem handOver_link (s : State) (f : Frame) : (s.handOver f).link = (s.link.transmit f.bytes).2 := rfl

/-- What a listed answer makes of `transmit`. -/
theorem transmit_of_listed {l : Link} {m : Nat} {rest : List Nat} (h : l.accepts = m :: rest) (bs : List Byte) :
    l.transmit bs = (min m bs.length, { l with accepts := rest, tx := l.tx ++ bs.take m }) := by
  rw [Link.transmit, h]

/-- Settles O58: the scheduler is asked with the transport as the two questions leave it. -/
theorem txstepResult : Obligations.TxstepResult := by
  intro s n now l1 l2 hlevel hnow
  have hlevels : l1.tx = s.link.tx := by simpa [hlevel] using (askLevel_spec s.link).1
  have hclock : l2.tx = l1.tx := by simpa [hnow] using (askNow_spec l1).1
  refine ⟨fun hhigh => ?_, fun hlow => ?_⟩
  · rw [exec, execTxstep, txStep_of_high hlevel hhigh]
    rfl
  · obtain ⟨r, u, hnext⟩ : ∃ r u, (s.withLink l2).getNext now = (r, u) := ⟨_, _, rfl⟩
    have hanswers : u.answers = s.answers := by simpa [hnext] using getNext_answers (s.withLink l2) now
    have hlink : u.link = l2 := by simpa [hnext] using getNext_link (s.withLink l2) now
    refine ⟨u.answerFrame r, exec_getnext_eq hnext, ?_⟩
    rw [exec, execTxstep, txStep_of_low hlevel hnow hlow hnext, ← hanswers]
    cases r with
    | none => exact .inl ⟨rfl, rfl⟩
    | some f =>
      obtain ⟨hle, htx, -⟩ := transmit_spec l2 f.bytes
      rw [hclock, hlevels] at htx
      have hsent : (u.handOver f).done.link = (l2.transmit f.bytes).2 := hlink ▸ handOver_link u f
      refine .inr ⟨f, (u.handOver f).done, (l2.transmit f.bytes).1, rfl, rfl, rfl, ?_, hle, ?_,
        fun m rest hlisted => ?_⟩
      all_goals rw [hsent]
      · exact htx
      · rw [transmit_of_listed hlisted]
        exact ⟨rfl, rfl⟩

end Sys2Proof.Machine

/-! ## TASK (R137) -/

namespace Sys2Proof.Machine

theorem syncBurstStep_answers (s : State) : s.syncBurstStep.answers = s.answers := by rw [syncBurstStep_frame]

/-- The burst takes no inbound byte. -/
theorem syncBurstStep_drainNeverEnds (s : State) : s.syncBurstStep.link.drainNeverEnds = s.link.drainNeverEnds := by
  have hsent : (s.link.transmit syncBurst).2.drainNeverEnds = s.link.drainNeverEnds := by
    obtain ⟨-, -, hrx, hendless, -, -⟩ := transmit_spec s.link syncBurst
    rw [Link.drainNeverEnds, hrx, hendless, Link.drainNeverEnds]
  unfold State.syncBurstStep
  dsimp only
  split
  · rfl
  · split
    · exact hsent
    · exact hsent

/-- `TASK` returns where its drain ends, and where it does not drain (D18). -/
theorem taskNeverEnds_eq_false {s : State} (h : s.link.drainNeverEnds = false ∨ s.syncBurstStep.syncSent = false) :
    s.taskNeverEnds = false := by
  rw [State.taskNeverEnds, Bool.and_eq_false_iff]
  exact h

theorem taskStep_of_unsynchronized {s : State} (h : s.syncBurstStep.syncSent = false) :
    s.taskStep = s.syncBurstStep := by
  rw [State.taskStep, if_neg (Bool.eq_false_iff.mp h)]

theorem taskStep_of_synchronized {s : State} (h : s.syncBurstStep.syncSent = true) :
    s.taskStep = s.syncBurstStep.rxDrain.txStep := by
  rw [State.taskStep, if_pos h]

/-- Settles O59: the condition says that the drain ends or is not reached, and the three steps answer nothing. -/
theorem taskRunsItsThreeSteps : Obligations.TaskRunsItsThreeSteps := by
  intro s hcase
  have hends : s.link.drainNeverEnds = false ∨ s.syncBurstStep.syncSent = false := by
    rcases hcase with hend | hpause | ⟨hsync, hn⟩
    · exact .inl (drainNeverEnds_eq_false (.inl hend))
    · exact .inl (drainNeverEnds_eq_false (.inr hpause))
    · refine .inr ?_
      rw [syncBurstStep_of_refused hsync hn]
      exact hsync
  have htask : exec .task s = .next s.taskStep.done := by
    rw [exec, execTask, taskNeverEnds_eq_false hends]
    rfl
  refine ⟨_, _, htask, rfl, fun hunsync => ?_, fun hsync => ?_⟩
  · rw [taskStep_of_unsynchronized hunsync]
  · have hdrains : s.syncBurstStep.link.drainNeverEnds = false := by
      rw [syncBurstStep_drainNeverEnds]
      exact hends.resolve_right (Bool.eq_false_iff.not_left.mpr hsync)
    have hsilent : { s.syncBurstStep.done with answers := s.answers } = s.syncBurstStep := by
      rw [← syncBurstStep_answers s]
      rfl
    refine ⟨s.syncBurstStep.rxDrain.done, _, s.syncBurstStep.rxDrain.answers, ?_, rfl, rfl, ?_⟩
    · rw [hsilent, exec, execRxdrain, hdrains]
      rfl
    · rw [taskStep_of_synchronized hsync]
      rfl

end Sys2Proof.Machine

/-! ## Where the machine stops (R160, R190, U17) -/

namespace Sys2Proof.Machine

theorem drainNeverEnds_iff (l : Link) : l.drainNeverEnds = true ↔ l.rxEndless = true ∧ [] ∉ l.rx := by
  refine ⟨fun h => ⟨?_, fun hmem => ?_⟩, fun ⟨hendless, hne⟩ => ?_⟩
  · exact Bool.and_elim_left h
  · exact Bool.false_ne_true ((drainNeverEnds_eq_false (.inr hmem)).symm.trans h)
  · have hall : l.rx.all (fun bs => !bs.isEmpty) = true :=
      List.all_eq_true.mpr fun bs hbs => by
        cases bs with
        | nil => exact absurd hbs hne
        | cons b bs => rfl
    rw [Link.drainNeverEnds, hendless, hall, Bool.true_and]

/-- An outcome of the instruction or step that starts in `s`: a next state, or the hang of a drain that does not end. -/
def ReturnsOrHangs (s : State) (o : Host.Outcome State Fault Refusal) : Prop :=
  (∃ t, o = .next t) ∨ (o = .fault .drainNeverEnds ∧ s.link.drainNeverEnds = true)

theorem execRxdrain_returnsOrHangs (s : State) : ReturnsOrHangs s (execRxdrain s) := by
  unfold execRxdrain
  split
  · next h => exact .inr ⟨rfl, h⟩
  · exact .inl ⟨_, rfl⟩

theorem execTask_returnsOrHangs (s : State) : ReturnsOrHangs s (execTask s) := by
  unfold execTask
  split
  · next h => exact .inr ⟨rfl, Bool.and_elim_left h⟩
  · exact .inl ⟨_, rfl⟩

/-- Only `RXDRAIN` and `TASK` have an outcome other than a next state (R160). -/
theorem exec_returnsOrHangs (i : Instr) (s : State) : ReturnsOrHangs s (exec i s) := by
  cases i
  case rxdrain => exact execRxdrain_returnsOrHangs s
  case task => exact execTask_returnsOrHangs s
  all_goals exact .inl ⟨_, rfl⟩

theorem step_returnsOrHangs (s : State) : ReturnsOrHangs s (step s) := by
  cases hreq : s.requests with
  | nil => exact .inl ⟨s, step_of_idle hreq⟩
  | cons r rest =>
    cases hdec : decode r with
    | error e => exact .inl ⟨_, step_of_decode_error hreq hdec⟩
    | ok i =>
      rw [step_of_decode_ok hreq hdec]
      exact exec_returnsOrHangs i { s with requests := rest }

theorem exec_rxdrain_of_endless {s : State} (h : s.link.drainNeverEnds = true) :
    exec .rxdrain s = .fault .drainNeverEnds := if_pos h

theorem exec_task_of_endless {s : State} (h : s.link.drainNeverEnds = true) (hsync : s.syncSent = true) :
    exec .task s = .fault .drainNeverEnds := by
  refine if_pos ?_
  rw [State.taskNeverEnds, syncBurstStep_of_synchronized hsync, h, hsync]
  rfl

/-- Settles O7: a step returns or hangs in its drain, and the drain hangs exactly where the inbound bytes never cease. -/
theorem onlyAnEndlessDrainStops : Obligations.OnlyAnEndlessDrainStops := by
  refine ⟨fun s hfinite => ?_, fun s r h => ?_, fun s f h => ?_, fun s hendless hne => ?_⟩
  · refine (step_returnsOrHangs s).resolve_right fun ⟨_, hhang⟩ => ?_
    exact Bool.false_ne_true (hfinite.symm.trans ((drainNeverEnds_iff _).mp hhang).1)
  · rcases step_returnsOrHangs s with ⟨t, ht⟩ | ⟨hfault, _⟩
    · cases ht.symm.trans h
    · cases hfault.symm.trans h
  · rcases step_returnsOrHangs s with ⟨t, ht⟩ | ⟨_, hhang⟩
    · cases ht.symm.trans h
    · exact (drainNeverEnds_iff _).mp hhang
  · have hhang : s.link.drainNeverEnds = true := (drainNeverEnds_iff _).mpr ⟨hendless, hne⟩
    exact ⟨exec_rxdrain_of_endless hhang, exec_task_of_endless hhang⟩

end Sys2Proof.Machine
